-- ==== Sys2Proof/Word.lean ====
section
/-! DEFINITION. The word types of the T82 and the four-fold collections (one value per port, one per tag). -/

namespace Sys2Proof

/-- A byte of a frame, a record or the tile area. -/
abbrev Byte := BitVec 8

/-- A timebase count, in ft (R1). -/
abbrev Time := BitVec 64

/-- An angle in au; one turn is 2^24 (00_scope, Angles). -/
abbrev Angle := BitVec 24

/-- A port number, 0 to 3 (R165). -/
abbrev PortId := Fin 4

/-- A tag, 0 to 3, read from bits 0 and 1 of the frame's byte 1 (R191). -/
abbrev Tag := Fin 4

/-- An event position, 0 to 11 (10.1). -/
abbrev EventPos := Fin 12

/-- A set of event positions, bit p for position p (R182, R194). -/
abbrev EventSet := BitVec 12

/-- Four values, numbered 0 to 3: one per port, or one per tag. -/
structure Quad (α : Type) where
  p0 : α
  p1 : α
  p2 : α
  p3 : α
  deriving DecidableEq, Repr

namespace Quad

variable {α β : Type}

/-- The value with number `i`. -/
def get (q : Quad α) (i : Fin 4) : α :=
  match i with
  | 0 => q.p0
  | 1 => q.p1
  | 2 => q.p2
  | 3 => q.p3

/-- The four values with number `i` replaced. -/
def set (q : Quad α) (i : Fin 4) (x : α) : Quad α :=
  match i with
  | 0 => { q with p0 := x }
  | 1 => { q with p1 := x }
  | 2 => { q with p2 := x }
  | 3 => { q with p3 := x }

/-- The four values with number `i` changed by `f`. -/
def modify (q : Quad α) (i : Fin 4) (f : α → α) : Quad α :=
  q.set i (f (q.get i))

/-- Every value changed by `f`. -/
def map (f : α → β) (q : Quad α) : Quad β :=
  ⟨f q.p0, f q.p1, f q.p2, f q.p3⟩

/-- Every value changed by `f`, which is told its number. -/
def mapIdx (f : Fin 4 → α → β) (q : Quad α) : Quad β :=
  ⟨f 0 q.p0, f 1 q.p1, f 2 q.p2, f 3 q.p3⟩

/-- The same value four times. -/
def all (x : α) : Quad α :=
  ⟨x, x, x, x⟩

/-- The values in number order. -/
def toList (q : Quad α) : List α :=
  [q.p0, q.p1, q.p2, q.p3]

@[simp] theorem get_set_same (q : Quad α) (i : Fin 4) (x : α) : (q.set i x).get i = x := by
  match i with
  | 0 => rfl
  | 1 => rfl
  | 2 => rfl
  | 3 => rfl

theorem get_set_other (q : Quad α) {i j : Fin 4} (x : α) (h : j ≠ i) :
    (q.set i x).get j = q.get j := by
  match i, j with
  | 0, 0 | 1, 1 | 2, 2 | 3, 3 => exact absurd rfl h
  | 0, 1 | 0, 2 | 0, 3 | 1, 0 | 1, 2 | 1, 3 | 2, 0 | 2, 1 | 2, 3 | 3, 0 | 3, 1 | 3, 2 => rfl

theorem get_set (q : Quad α) (i j : Fin 4) (x : α) :
    (q.set i x).get j = if j = i then x else q.get j := by
  by_cases h : j = i
  · subst h; simp
  · simp [h, get_set_other q x h]

@[simp] theorem get_modify_same (q : Quad α) (i : Fin 4) (f : α → α) :
    (q.modify i f).get i = f (q.get i) := by
  simp [modify]

theorem get_modify_other (q : Quad α) {i j : Fin 4} (f : α → α) (h : j ≠ i) :
    (q.modify i f).get j = q.get j :=
  get_set_other q _ h

@[simp] theorem get_map (f : α → β) (q : Quad α) (i : Fin 4) : (q.map f).get i = f (q.get i) := by
  match i with
  | 0 => rfl
  | 1 => rfl
  | 2 => rfl
  | 3 => rfl

@[simp] theorem get_mapIdx (f : Fin 4 → α → β) (q : Quad α) (i : Fin 4) :
    (q.mapIdx f).get i = f i (q.get i) := by
  match i with
  | 0 => rfl
  | 1 => rfl
  | 2 => rfl
  | 3 => rfl

@[simp] theorem get_all (x : α) (i : Fin 4) : (all x).get i = x := by
  match i with
  | 0 => rfl
  | 1 => rfl
  | 2 => rfl
  | 3 => rfl

end Quad

end Sys2Proof
end

