-- ==== Sys2Proof/Syntax.lean ====
section
/-! DEFINITION. The commands of the T82: one constructor per row of spec/opcode_table.json.

`dt` is the number of ft that passed since the previous step (log 1), `p` the port a frame or link event belongs
to, `tag` the tag of the frame. The operands of the client commands are the raw fields of the command block
(11.3), so that every refusal of an illegal operand can be commanded. -/

namespace Sys2Proof

/-- The two shaft encoders (1.2). -/
inductive Axis where
  | mirror
  | azimuth
  deriving DecidableEq, Repr

/-- What the quadrature decoder makes of one change of the channels (R4). -/
inductive EdgeKind where
  /-- the phase of the two channels advances -/
  | forward
  /-- the phase of the two channels retreats -/
  | backward
  /-- both channels changed at once: a quadrature error -/
  | bothChannels
  deriving DecidableEq, Repr

inductive Instr where
  /-- Release of the RESET pin. `straps` are the codes ROLE1 × 2 + ROLE0 of the four ports (11.6). -/
  | powerOn (straps : Quad (BitVec 2))
  /-- The timebase passes 2^64 − 1. -/
  | tbWrap
  /-- A change of a quadrature channel; `indexActive` is the level of the axis's index input at the edge. -/
  | quadratureEdge (dt : Nat) (axis : Axis) (kind : EdgeKind) (indexActive : Bool)
  | indexInactive (dt : Nat) (axis : Axis)
  | stallTimerExpiry (dt : Nat)
  | rangingLinkUp (dt : Nat)
  | rangingLinkLoss (dt : Nat)
  /-- An EMIT record of the ranging link (2.1). -/
  | emit (dt : Nat) (id : BitVec 16) (time : Time)
  /-- An ECHO record of the ranging link (2.1): reference id, delay D, amplitude, width, SATURATED. -/
  | echo (dt : Nat) (reference : BitVec 16) (delay : BitVec 28) (amplitude : BitVec 16) (width : BitVec 8)
      (saturated : Bool)
  /-- A FAULT record of the ranging link (2.1). -/
  | faultRecord (dt : Nat) (code : Byte)
  | armedTimerExpiry (dt : Nat)
  | drainTimerExpiry (dt : Nat)
  /-- LNB takes the oldest abandonment report (R74). -/
  | abandonmentReport (dt : Nat)
  /-- The transfer in progress ends. `work` is how much of its requester's work it carried: points evaluated for
  CLR, bytes for the tile loader and the stream readers, nothing for the ring writer (log 5). -/
  | dramTransferEnd (dt : Nat) (work : Nat)
  | firstPassEnd (dt : Nat)
  | backfillStepEnd (dt : Nat)
  | strobeRise (dt : Nat)
  | strobeFall (dt : Nat)
  | strobeTimeoutExpiry (dt : Nat)
  | tileDeadlineExpiry (dt : Nat) (exposure : BitVec 32)
  | tileLoadComplete (dt : Nat)
  | lineDeliveryComplete (dt : Nat) (p : PortId)
  | clientLinkUp (dt : Nat) (p : PortId)
  | clientLinkLoss (dt : Nat) (p : PortId)
  | badFrame (dt : Nat) (p : PortId)
  | dataOut (dt : Nat) (p : PortId) (tag : Tag) (payload : List Byte)
  | frameTransmitted (dt : Nat) (p : PortId)
  /-- A COMMAND frame whose byte 0, `code`, names no command (R169). -/
  | unknownCommand (dt : Nat) (p : PortId) (tag : Tag) (code : Byte)
  | identify (dt : Nat) (p : PortId) (tag : Tag)
  | statusRead (dt : Nat) (p : PortId) (tag : Tag)
  | countersRead (dt : Nat) (p : PortId) (tag : Tag) (clear : Bool)
  | senseRead (dt : Nat) (p : PortId) (tag : Tag)
  | tagAbort (dt : Nat) (p : PortId) (tag : Tag) (target : Byte)
  | portReset (dt : Nat) (p : PortId) (tag : Tag)
  | eventSetup (dt : Nat) (p : PortId) (tag : Tag) (enable : BitVec 16) (mode : Byte) (first : Byte)
  | eventNext (dt : Nat) (p : PortId) (tag : Tag)
  | eventFreeze (dt : Nat) (p : PortId) (tag : Tag) (onOff : Byte)
  | scanSetup (dt : Nat) (p : PortId) (tag : Tag)
  | scanStart (dt : Nat) (p : PortId) (tag : Tag)
  | scanStop (dt : Nat) (p : PortId) (tag : Tag)
  | faultClear (dt : Nat) (p : PortId) (tag : Tag)
  | restart (dt : Nat) (p : PortId) (tag : Tag)
  | mirrorCalibrate (dt : Nat) (p : PortId) (tag : Tag)
  | maskLoad (dt : Nat) (p : PortId) (tag : Tag) (empty : Bool) (count : Byte)
  | cameraSetup (dt : Nat) (p : PortId) (tag : Tag)
  | stationLoad (dt : Nat) (p : PortId) (tag : Tag) (empty : Bool) (count : Byte)
  | exposuresRead (dt : Nat) (p : PortId) (tag : Tag) (after : BitVec 32) (count : Byte)
  | exposureDrop (dt : Nat) (p : PortId) (tag : Tag) (exposure : BitVec 32)
  | tileLoad (dt : Nat) (p : PortId) (tag : Tag) (exposure : BitVec 32) (priority : Byte) (w : Byte) (h : Byte)
  | tileRetire (dt : Nat) (p : PortId) (tag : Tag) (slot : Byte) (exposure : BitVec 32)
  | tilesList (dt : Nat) (p : PortId) (tag : Tag)
  | streamOpen (dt : Nat) (p : PortId) (tag : Tag) (mode : Byte) (start : Byte) (startLine : BitVec 32)
  | streamClose (dt : Nat) (p : PortId) (tag : Tag)
  | linesRead (dt : Nat) (p : PortId) (tag : Tag) (count : Byte)
  | linesRelease (dt : Nat) (p : PortId) (tag : Tag) (n : BitVec 32)
  | linesCheck (dt : Nat) (p : PortId) (tag : Tag)
  | lineFind (dt : Nat) (p : PortId) (tag : Tag) (startLine : BitVec 32) (criterion : Byte) (azimuth : BitVec 24)
      (mask : Byte) (value : Byte) (invert : Bool)
  deriving DecidableEq, Repr

end Sys2Proof
end

