-- ==== Sys2Proof/WellFormed.lean ====
section
/-! DEFINITION. The checks a command passes before it is one the hardware can be sent. Port numbers, tags and the
widths of fields are checked by their types. -/

namespace Sys2Proof

/-- The command codes of 11.3. -/
def commandCodes : List Byte :=
  [0x01, 0x02, 0x03, 0x04, 0x05, 0x06, 0x08, 0x09, 0x0A, 0x10, 0x11, 0x12, 0x13, 0x14, 0x15, 0x16, 0x20, 0x21,
   0x22, 0x23, 0x30, 0x31, 0x32, 0x40, 0x41, 0x42, 0x43, 0x44, 0x45]

/-- The ft that pass before a command; POWER_ON and TB_WRAP fix the time themselves. -/
def Instr.elapsed : Instr → Nat
  | .powerOn _ => 0
  | .tbWrap => 0
  | .quadratureEdge dt _ _ _ => dt
  | .indexInactive dt _ => dt
  | .stallTimerExpiry dt => dt
  | .rangingLinkUp dt => dt
  | .rangingLinkLoss dt => dt
  | .emit dt _ _ => dt
  | .echo dt _ _ _ _ _ => dt
  | .faultRecord dt _ => dt
  | .armedTimerExpiry dt => dt
  | .drainTimerExpiry dt => dt
  | .abandonmentReport dt => dt
  | .dramTransferEnd dt _ => dt
  | .firstPassEnd dt => dt
  | .backfillStepEnd dt => dt
  | .strobeRise dt => dt
  | .strobeFall dt => dt
  | .strobeTimeoutExpiry dt => dt
  | .tileDeadlineExpiry dt _ => dt
  | .tileLoadComplete dt => dt
  | .lineDeliveryComplete dt _ => dt
  | .clientLinkUp dt _ => dt
  | .clientLinkLoss dt _ => dt
  | .badFrame dt _ => dt
  | .dataOut dt _ _ _ => dt
  | .frameTransmitted dt _ => dt
  | .unknownCommand dt _ _ _ => dt
  | .identify dt _ _ => dt
  | .statusRead dt _ _ => dt
  | .countersRead dt _ _ _ => dt
  | .senseRead dt _ _ => dt
  | .tagAbort dt _ _ _ => dt
  | .portReset dt _ _ => dt
  | .eventSetup dt _ _ _ _ _ => dt
  | .eventNext dt _ _ => dt
  | .eventFreeze dt _ _ _ => dt
  | .scanSetup dt _ _ => dt
  | .scanStart dt _ _ => dt
  | .scanStop dt _ _ => dt
  | .faultClear dt _ _ => dt
  | .restart dt _ _ => dt
  | .mirrorCalibrate dt _ _ => dt
  | .maskLoad dt _ _ _ _ => dt
  | .cameraSetup dt _ _ => dt
  | .stationLoad dt _ _ _ _ => dt
  | .exposuresRead dt _ _ _ _ => dt
  | .exposureDrop dt _ _ _ => dt
  | .tileLoad dt _ _ _ _ _ _ => dt
  | .tileRetire dt _ _ _ _ => dt
  | .tilesList dt _ _ => dt
  | .streamOpen dt _ _ _ _ _ => dt
  | .streamClose dt _ _ => dt
  | .linesRead dt _ _ _ => dt
  | .linesRelease dt _ _ _ => dt
  | .linesCheck dt _ _ => dt
  | .lineFind dt _ _ _ _ _ _ _ _ => dt

/-- The check on a command's own operands. A DATA-OUT that passes R167 carries 1 to 1,024 bytes; the code of an
unknown command is none of 11.3; a DRAM transfer carries at most 1,024 bytes (R94). -/
def Instr.operandsOk : Instr → Bool
  | .dataOut _ _ _ payload => decide (1 ≤ payload.length ∧ payload.length ≤ 1024)
  | .unknownCommand _ _ _ code => !commandCodes.contains code
  | .dramTransferEnd _ work => decide (work ≤ 1024)
  | _ => true

/-- A command is well formed when less than one full turn of the timebase passes before it and its operands pass
their check. -/
def Instr.wellFormed (c : Instr) : Bool :=
  decide (c.elapsed < 18446744073709551616) && c.operandsOk

end Sys2Proof
end

