-- ==== Sys2Proof/Decode.lean ====
section
/-! DEFINITION. How words and frames spell commands. No row of the table has bits, so no word spells a command (log 22). A
client's bytes on a link spell commands by the frame and command block layouts (R167, R190, R191, 11.2, 11.3). -/

namespace Sys2Proof

/-- The command a word spells: none, since the table gives no row bits. -/
def decodeTableWord (_nbits _w : Nat) : Option Instr := none

/-! ### CRC-16 (R191) -/

/-- One bit of the CRC, most significant bit first, polynomial x^16 + x^12 + x^5 + 1. -/
def crcBit (crc : BitVec 16) (bit : Bool) : BitVec 16 :=
  if crc.msb ^^ bit then (crc <<< 1) ^^^ 0x1021#16 else crc <<< 1

/-- The bits of a byte, most significant first. -/
def msbFirst (b : Byte) : List Bool :=
  [b.getLsbD 7, b.getLsbD 6, b.getLsbD 5, b.getLsbD 4, b.getLsbD 3, b.getLsbD 2, b.getLsbD 1, b.getLsbD 0]

/-- The CRC-16 over header and payload. -/
def crc16 (bytes : List Byte) : BitVec 16 := (bytes.flatMap msbFirst).foldl crcBit 0xFFFF#16

/-! ### Command blocks (11.3) -/

/-- A byte of a command block. -/
def cbByte (cb : List Byte) (i : Nat) : Byte := cb.getD i 0

/-- A 32-bit operand at byte `i`, least significant byte first. -/
def cbWord (cb : List Byte) (i : Nat) : BitVec 32 :=
  cbByte cb (i + 3) ++ cbByte cb (i + 2) ++ cbByte cb (i + 1) ++ cbByte cb i

/-- A 24-bit operand at byte `i`. -/
def cbAngle (cb : List Byte) (i : Nat) : BitVec 24 := cbByte cb (i + 2) ++ cbByte cb (i + 1) ++ cbByte cb i

/-- The command's flag, bit 2 of byte 1. -/
def cbFlag (cb : List Byte) : Bool := (cbByte cb 1).getLsbD 2

/-- The command of a 16-byte command block that arrives on a port with a tag. -/
def commandOfBlock (dt : Nat) (p : PortId) (tag : Tag) (cb : List Byte) : Instr :=
  let b := cbByte cb
  match (b 0).toNat with
  | 0x01 => .identify dt p tag
  | 0x02 => .statusRead dt p tag
  | 0x03 => .countersRead dt p tag (cbFlag cb)
  | 0x04 => .senseRead dt p tag
  | 0x05 => .tagAbort dt p tag (b 2)
  | 0x06 => .portReset dt p tag
  | 0x08 => .eventSetup dt p tag (b 3 ++ b 2) (b 4) (b 5)
  | 0x09 => .eventNext dt p tag
  | 0x0A => .eventFreeze dt p tag (b 2)
  | 0x10 => .scanSetup dt p tag
  | 0x11 => .scanStart dt p tag
  | 0x12 => .scanStop dt p tag
  | 0x13 => .faultClear dt p tag
  | 0x14 => .restart dt p tag
  | 0x15 => .mirrorCalibrate dt p tag
  | 0x16 => .maskLoad dt p tag (cbFlag cb) (b 2)
  | 0x20 => .cameraSetup dt p tag
  | 0x21 => .stationLoad dt p tag (cbFlag cb) (b 2)
  | 0x22 => .exposuresRead dt p tag (cbWord cb 2) (b 6)
  | 0x23 => .exposureDrop dt p tag (cbWord cb 2)
  | 0x30 => .tileLoad dt p tag (cbWord cb 2) (b 6) (b 7) (b 8)
  | 0x31 => .tileRetire dt p tag (b 2) (cbWord cb 3)
  | 0x32 => .tilesList dt p tag
  | 0x40 => .streamOpen dt p tag (b 2) (b 3) (cbWord cb 4)
  | 0x41 => .streamClose dt p tag
  | 0x42 => .linesRead dt p tag (b 2)
  | 0x43 => .linesRelease dt p tag (cbWord cb 2)
  | 0x44 => .linesCheck dt p tag
  | 0x45 => .lineFind dt p tag (cbWord cb 2) (b 6) (cbAngle cb 7) (b 10) (b 11) (cbFlag cb)
  | _ => .unknownCommand dt p tag (b 0)

/-! ### Frames (R167, 11.2) -/

/-- The tag of a frame's byte 1. -/
def frameTag (b : Byte) : Tag := ⟨b.toNat % 4, Nat.mod_lt _ (by decide)⟩

/-- The payload length of a frame's bytes 2 and 3. -/
def frameLength (bytes : List Byte) : Nat := (cbByte bytes 3 ++ cbByte bytes 2).toNat

/-- A frame whose header, payload and CRC are `bytes`, checked by R167. -/
def commandOfFrame (dt : Nat) (p : PortId) (bytes : List Byte) : Instr :=
  let n := frameLength bytes
  let payload := (bytes.drop 4).take n
  let sent := cbByte bytes (5 + n) ++ cbByte bytes (4 + n)
  if sent ≠ crc16 (bytes.take (4 + n)) ∨ bytes.length < 6 + n then .badFrame dt p
  else
    match (cbByte bytes 0).toNat with
    | 1 => if n = 16 then commandOfBlock dt p (frameTag (cbByte bytes 1)) payload else .badFrame dt p
    | 2 => if 1 ≤ n ∧ n ≤ 1024 then .dataOut dt p (frameTag (cbByte bytes 1)) payload else .badFrame dt p
    | _ => .badFrame dt p

/-- The commands of the bytes from one frame header to the next: the frame ends at the CRC placed by its length, and what
lies between it and the next header is discarded and counted in BAD FRAMES (R191). It counts 1, whatever its length, a DESIGN
CHOICE (log 36): the rule gives no number. -/
def commandsOfBytes (dt : Nat) (p : PortId) (bytes : List Byte) : List Instr :=
  commandOfFrame dt p bytes :: (if 6 + frameLength bytes < bytes.length then [.badFrame 0 p] else [])

end Sys2Proof
end

