-- ==== Sys2Proof/Config.lean ====
section
/-! DEFINITION. What an implementation fixes and the spec does not state. -/

namespace Sys2Proof

/-- The silicon revision number that IDENTIFY reports (R178 names it and gives no value). A free value: the
constant has no body, so no proof can rest on a number. Log 16. -/
opaque Config.siliconRevision : Byte

end Sys2Proof
end

