-- ==== Sys2Proof/Machine/Types.lean ====
section
/-! DEFINITION. The types of the state of each block, as plain data, in the chapter order of the spec. -/

namespace Sys2Proof.Machine

/-! ### Shared -/

/-- A link, ranging or client: DOWN or UP (R21, R165). -/
inductive LinkState where
  | down
  | up
  deriving DecidableEq, Repr

/-- A running timeout: the count at which it was started and its length in ft (R1). -/
structure TimerRun where
  start : Time
  length : Nat
  deriving DecidableEq, Repr

/-- A command in flight, by the port and tag it holds. -/
structure PortTag where
  port : PortId
  tag : Tag
  deriving DecidableEq, Repr

/-- An angular window [azStart, azStart + azWidth) × [mLow, mHigh) (00_scope, Angles). -/
structure AngularWindow where
  azStart : Angle
  azWidth : Nat
  mLow : Angle
  mHigh : Angle
  deriving DecidableEq, Repr

/-! ### ANG -/

/-- The direction of a counted edge: +1 or −1 (R4). -/
inductive Dir where
  | forward
  | backward
  deriving DecidableEq, Repr

/-- One edge record (R8); `turn` is the revolution number or the turn number. -/
structure EdgeRec where
  time : Time
  count : Nat
  turn : BitVec 32
  dir : Dir
  deriving DecidableEq, Repr

/-- What ANG holds for one axis (R3, R8); the history is oldest first. -/
structure AxisState where
  count : Nat
  turn : BitVec 32
  aligned : Bool
  armed : Bool
  history : List EdgeRec
  deriving DecidableEq, Repr

/-- The band state of the mirror speed monitor (R16). -/
inductive BandState where
  | unknown
  | inBand
  | outOfBand
  deriving DecidableEq, Repr

/-- The verdict of a revolution report (R17). -/
inductive Verdict where
  | unmeasured
  | inBand
  | outOfBand
  deriving DecidableEq, Repr

/-- The cause of a band loss (R18). -/
inductive BandLossCause where
  | stall
  | reverse
  deriving DecidableEq, Repr

structure AngCounters where
  mirrorQuadratureErrors : Nat
  azimuthQuadratureErrors : Nat
  mirrorIndexFaults : Nat
  azimuthIndexFaults : Nat
  mirrorBandLosses : Nat
  extrapolatedAngles : Nat
  staleAngles : Nat
  deriving DecidableEq, Repr

structure Ang where
  mirror : AxisState
  azimuth : AxisState
  travel : BitVec 64
  calibration : List (BitVec 16)
  suspect : Option (BitVec 32)
  prevIndex : Option Time
  tm : Option Time
  band : BandState
  stall : Option TimerRun
  counters : AngCounters
  deriving DecidableEq, Repr

/-! ### ECA -/

/-- A kept echo (R35). -/
structure Echo where
  range : BitVec 24
  amplitude : BitVec 16
  width : BitVec 8
  near : Bool
  far : Bool
  weak : Bool
  saturated : Bool
  deriving DecidableEq, Repr

inductive PulseState where
  | isOpen
  | isClosed
  deriving DecidableEq, Repr

/-- One pulse record (R23). -/
structure PulseRec where
  id : BitVec 16
  time : Time
  state : PulseState
  echoes : List Echo
  overflow : Bool
  quality : Bool
  deriving DecidableEq, Repr

/-- The id and emission time of the last EMIT entered (R24). -/
structure PrevEmit where
  id : BitVec 16
  time : Time
  deriving DecidableEq, Repr

/-- The source of the last ranging fault (R21, R40). -/
inductive RangingFault where
  | link
  | record (code : Byte)
  deriving DecidableEq, Repr

structure EcaCounters where
  emitFaults : Nat
  pulseGaps : Nat
  idBreaks : Nat
  orphanEchoes : Nat
  outOfWindowEchoes : Nat
  qualityDrops : Nat
  orderFaults : Nat
  echoOverflows : Nat
  noReturnDrops : Nat
  pulsesDiscarded : Nat
  rangingFaultRecords : Nat
  rangingLinkLosses : Nat
  deriving DecidableEq, Repr

structure Eca where
  link : LinkState
  history : List PulseRec
  prevEmit : Option PrevEmit
  lastFault : Option RangingFault
  countSent : Option Time
  counters : EcaCounters
  deriving DecidableEq, Repr

/-! ### Points -/

/-- The colour state of a point (R118). -/
inductive PointColour where
  | absent
  | pending
  | present
  deriving DecidableEq, Repr

structure Rgb where
  r : Byte
  g : Byte
  b : Byte
  deriving DecidableEq, Repr

/-- The point flags (R36, R66). -/
structure PointFlags where
  extrapolated : Bool
  stale : Bool
  suspect : Bool
  echoOverflow : Bool
  noReturn : Bool
  maskTag : Bool
  deriving DecidableEq, Repr

/-- A point record (R36, R118). -/
structure Point where
  m : Angle
  a : Angle
  echoes : List Echo
  flags : PointFlags
  colourState : PointColour
  colour : Rgb
  colourTag : Byte
  deriving DecidableEq, Repr

/-- A point with the three companions ECA hands to LNB (R37). -/
structure FormedPoint where
  point : Point
  revolution : BitVec 32
  emission : Time
  quality : Bool
  deriving DecidableEq, Repr

/-! ### SCN -/

inductive ScanState where
  | idle
  | armed
  | running
  | draining
  | fault
  deriving DecidableEq, Repr

/-- The fault cause (R43), with the rangefinder's code for RANGING RECORD. -/
inductive FaultCause where
  | mirrorBand
  | mirrorStall
  | mirrorReverse
  | rangingRecord (code : Byte)
  | rangingLink
  deriving DecidableEq, Repr

inductive QualityPolicy where
  | keep
  | drop
  | report
  deriving DecidableEq, Repr

inductive NoReturnPolicy where
  | keep
  | drop
  deriving DecidableEq, Repr

/-- The scan parameters, in the units of R44. -/
structure ScanParams where
  zone : Nat
  nominalMs : Nat
  toleranceUs : Nat
  stallUs : Nat
  armedTimeoutMs : Nat
  ws : Nat
  we : Nat
  mirrorZero : Nat
  rangeScale : Nat
  rangeOffset : Nat
  nearLimit : Nat
  farLimit : Nat
  weakThreshold : Nat
  qualityPolicy : QualityPolicy
  noReturnPolicy : NoReturnPolicy
  azimuthSpan : Nat
  drainUs : Nat
  defaultColourRange : Nat
  parallax : Int
  ringSize : Nat
  deriving DecidableEq, Repr

structure Scn where
  state : ScanState
  inBand : Nat
  armed : Option TimerRun
  drain : Option TimerRun
  cause : Option FaultCause
  session : BitVec 16
  startAz : Option Angle
  startReply : Option PortTag
  stopReplies : List PortTag
  laser : Bool
  params : ScanParams
  deriving DecidableEq, Repr

/-! ### LNB -/

inductive MaskAction where
  | drop
  | tag
  deriving DecidableEq, Repr

/-- A mask entry (R75). -/
structure MaskEntry where
  azStart : Nat
  azWidth : Nat
  mLow : Nat
  mHigh : Nat
  action : MaskAction
  deriving DecidableEq, Repr

/-- The header flags (4.3). -/
structure HeaderFlags where
  truncated : Bool
  aborted : Bool
  suspect : Bool
  pointsDropped : Bool
  colourSkipped : Bool
  quality : Bool
  deriving DecidableEq, Repr

/-- The colour state of a line (R119). -/
inductive LineColour where
  | settled
  | pending
  deriving DecidableEq, Repr

/-- A line header (4.3). -/
structure LineHeader where
  lineNumber : Nat
  session : BitVec 16
  revolution : BitVec 32
  firstEmission : Time
  lastEmission : Time
  firstA : Angle
  lastA : Angle
  pointCount : Nat
  fifoDropped : Nat
  lostBefore : Nat
  flags : HeaderFlags
  colour : LineColour
  pendingCount : Nat
  deriving DecidableEq, Repr

/-- An item of the Point FIFO (R69): a point with its line's number, or a line notice. -/
inductive FifoItem where
  | openNotice (line : Nat)
  | point (line : Nat) (p : Point)
  | closeNotice (line : Nat) (header : LineHeader)
  deriving DecidableEq, Repr

/-- The cause with which a line closes (R71). -/
inductive CloseCause where
  | newRevolution
  | windowEnd
  | truncated
  | drain
  | aborted
  deriving DecidableEq, Repr

structure LnbCounters where
  maskDrops : Nat
  closedRevolutionDrops : Nat
  fifoDrops : Nat
  unnumberedPoints : Nat
  deriving DecidableEq, Repr

structure Lnb where
  openLine : Option LineHeader
  lineCounter : Nat
  spent : Option (BitVec 32)
  mask : List MaskEntry
  fifo : List FifoItem
  reports : List Nat
  counters : LnbCounters
  deriving DecidableEq, Repr

/-! ### RNG -/

/-- A line of the ring: RNG's header copy, the header bytes in DRAM, and its point records (R81). -/
structure RingLine where
  header : LineHeader
  dramHeader : LineHeader
  points : List Point
  deriving DecidableEq, Repr

inductive ClosedState where
  | colouring
  | coloured
  | skipped
  deriving DecidableEq, Repr

structure ClosedLine where
  line : RingLine
  state : ClosedState
  deriving DecidableEq, Repr

/-- The ring's open line: its number and the point records written for it (R81). -/
structure RingOpen where
  number : Nat
  points : List Point
  deriving DecidableEq, Repr

inductive DiscardCause where
  | abandoned
  | resized
  deriving DecidableEq, Repr

structure Discarding where
  number : Nat
  cause : DiscardCause
  deriving DecidableEq, Repr

inductive ArbiterMode where
  | normal
  | holdOff
  deriving DecidableEq, Repr

/-- The round-robin requesters of R95. -/
inductive RoundRobin where
  | clr
  | tileLoader
  | reader (p : PortId)
  deriving DecidableEq, Repr

/-- Whose transfer is in progress; the tile loader's names the slot it writes. -/
inductive TransferOwner where
  | ringWriter
  | clr
  | tileLoader (slot : Nat)
  | reader (p : PortId)
  deriving DecidableEq, Repr

/-- The transfer in progress; `wanted` is clear once the work it serves has ended (R97). -/
structure Transfer where
  owner : TransferOwner
  wanted : Bool
  deriving DecidableEq, Repr

structure RngCounters where
  linesLost : Nat
  abandonedPoints : Nat
  streamOverruns : Nat
  closeWaits : Nat
  deriving DecidableEq, Repr

structure Rng where
  committed : List RingLine
  closed : List ClosedLine
  openLine : Option RingOpen
  discarding : Option Discarding
  lostCount : Nat
  lostBoundary : Option Nat
  mode : ArbiterMode
  lastRR : RoundRobin
  run : Nat
  inProgress : Option Transfer
  stallCounted : Bool
  counters : RngCounters
  deriving DecidableEq, Repr

/-! ### EXS -/

inductive CameraMode where
  | off
  | stations
  | periodic
  deriving DecidableEq, Repr

/-- The camera setup, in the units of R102. -/
structure CameraSetup where
  mode : CameraMode
  interval : Nat
  azOffset : Int
  halfWidth : Nat
  mLow : Nat
  mHigh : Nat
  strobeTimeoutUs : Nat
  tileDeadlineS : Nat
  deriving DecidableEq, Repr

inductive ExposureState where
  | triggered
  | exposed
  | loading
  | tiled
  | expired
  | dropped
  | missed
  deriving DecidableEq, Repr

/-- An exposure record (R104). `strobe` runs in TRIGGERED, `deadline` in EXPOSED; `held` is the remaining time of a
deadline suspended in LOADING, in ft. -/
structure Exposure where
  id : Nat
  triggerTime : Time
  start : Option Time
  endTime : Option Time
  mid : Option Time
  azMid : Option Angle
  window : Option AngularWindow
  state : ExposureState
  slot : Option Nat
  strobe : Option TimerRun
  deadline : Option TimerRun
  held : Option Nat
  deriving DecidableEq, Repr

structure ExsCounters where
  skippedTriggers : Nat
  spontaneousStrobes : Nat
  missedExposures : Nat
  expiredExposures : Nat
  deriving DecidableEq, Repr

structure Exs where
  setup : CameraSetup
  stations : List Nat
  nextStation : Nat
  periodic : Nat
  idCounter : Nat
  log : List Exposure
  triggerPulses : Nat
  counters : ExsCounters
  deriving DecidableEq, Repr

/-! ### CLR -/

inductive SlotState where
  | loading
  | valid
  | retiring
  deriving DecidableEq, Repr

/-- A slot of the tile table that is not FREE (R120); its cells lie in the tile area. -/
structure TileSlot where
  slot : Nat
  state : SlotState
  exposure : Nat
  window : AngularWindow
  w : Nat
  h : Nat
  priority : Nat
  pins : Nat
  owner : Option PortTag
  received : Nat
  written : Nat
  deriving DecidableEq, Repr

inductive PassKind where
  | firstPass
  | task (exposure : Nat)
  | sweep
  deriving DecidableEq, Repr

/-- The running pass or step: its line, how many of the line's point records it has dealt with, and its tally (points
made PENDING by a first pass, points that left PENDING in a step). -/
structure Pass where
  line : Nat
  kind : PassKind
  done : Nat
  tally : Nat
  deriving DecidableEq, Repr

inductive WorkKind where
  | task (exposure : Nat)
  | sweep
  deriving DecidableEq, Repr

/-- The back-fill work in hand (R139). -/
structure Work where
  kind : WorkKind
  endLine : Option Nat
  position : Option Nat
  deriving DecidableEq, Repr

/-- Cell bytes that have arrived for a slot and that the tile loader has still to write (R124). -/
structure LoadChunk where
  slot : Nat
  bytes : List Byte
  deriving DecidableEq, Repr

structure ClrCounters where
  colourSkippedLines : Nat
  sectorExclusions : Nat
  backfillOverflows : Nat
  deriving DecidableEq, Repr

/-- Addressed bytes, as a list of cells in canonical form. -/
abbrev Memory := List Host.Cell

structure Clr where
  slots : List TileSlot
  tileArea : Memory
  loader : List LoadChunk
  sectors : List (List Nat)
  colourQueue : List Nat
  pass : Option Pass
  work : Option Work
  backfillQueue : List Nat
  sweepMark : Bool
  pendingList : List Nat
  counters : ClrCounters
  deriving DecidableEq, Repr

/-! ### STR -/

inductive StreamMode where
  | settled
  | asis
  deriving DecidableEq, Repr

/-- The state of an outstanding LINES READ (R146): WAITING, or DELIVERING a line. A delivering reader that waits for a
back-fill step on the line holds nothing (R150); `sent` counts the bytes of the line already handed. -/
inductive ReadState where
  | waiting
  | delivering (line : Nat) (holding : Bool) (sent : Nat)
  deriving DecidableEq, Repr

structure LinesRead where
  tag : Tag
  remaining : Nat
  state : ReadState
  deriving DecidableEq, Repr

inductive CheckState where
  | watching
  | changed
  deriving DecidableEq, Repr

structure CheckEntry where
  line : Nat
  state : CheckState
  deriving DecidableEq, Repr

/-- One port's stream (R146, R157). -/
structure Stream where
  isOpen : Bool
  mode : StreamMode
  readPoint : Nat
  releasePoint : Nat
  essential : Bool
  read : Option LinesRead
  table : List CheckEntry
  unsure : Option Nat
  deriving DecidableEq, Repr

structure StrCounters where
  checkEvictions : Nat
  cutDeliveries : Nat
  deriving DecidableEq, Repr

/-! ### PRT -/

inductive Role where
  | control
  | imaging
  | recording
  | viewer
  deriving DecidableEq, Repr

inductive SenseClass where
  | none
  | arg
  | role
  | state
  | full
  | gone
  | aborted
  | fault
  deriving DecidableEq, Repr

/-- The sense record (R173). -/
structure Sense where
  cls : SenseClass
  code : Nat
  info : Nat
  valid : Bool
  tag : Tag
  deriving DecidableEq, Repr

inductive Status where
  | done
  | accepted
  | check
  | busy
  | isMatch
  deriving DecidableEq, Repr

/-- The body of a frame the part sends (9.2): a REPLY with its status and, for CHECK, sense class and code, or a
DATA-IN with its payload. -/
inductive FrameBody where
  | reply (status : Status) (cls : SenseClass) (code : Nat)
  | dataIn (payload : List Byte)
  deriving DecidableEq, Repr

/-- A frame of the outgoing queue. `finished` is clear while the frame belongs to a command in flight (R176 removes
those at a port reset). -/
structure OutFrame where
  tag : Tag
  body : FrameBody
  finished : Bool
  deriving DecidableEq, Repr

/-- The operands of a TILE LOAD command block (R122). -/
structure TileOperands where
  exposure : Nat
  priority : Nat
  w : Nat
  h : Nat
  deriving DecidableEq, Repr

/-- A command in flight on a tag, with its progress (R165). The gathering commands hold the bytes gathered so far. -/
inductive Job where
  | mirrorCalibrate (bytes : List Byte)
  | scanSetup (bytes : List Byte)
  | maskLoad (entries : Nat) (bytes : List Byte)
  | cameraSetup (bytes : List Byte)
  | stationLoad (stations : Nat) (bytes : List Byte)
  | tileDescriptor (ops : TileOperands) (bytes : List Byte)
  | tileCells (slot : Nat)
  | scanStart
  | scanStop
  | tileRetire (slot : Nat)
  | linesRead
  /-- an immediate read command, with the payloads not yet handed (R172) -/
  | reading (code : Byte) (payloads : List (List Byte))
  deriving DecidableEq, Repr

structure PrtCounters where
  badFrames : Nat
  strayDataFrames : Nat
  linkLosses : Nat
  deriving DecidableEq, Repr

/-- One port (R165). -/
structure Port where
  link : LinkState
  role : Role
  tags : Quad (Option Job)
  sense : Sense
  outgoing : List OutFrame
  counters : PrtCounters
  deriving DecidableEq, Repr

/-! ### ATN -/

inductive PriorityMode where
  | fixed
  | rotate
  deriving DecidableEq, Repr

/-- One port's attention controller (R182). -/
structure Atn where
  enable : EventSet
  pending : EventSet
  double : EventSet
  held : EventSet
  mode : PriorityMode
  first : EventPos
  rank : List EventPos
  frozen : Bool
  deriving DecidableEq, Repr

end Sys2Proof.Machine
end

