-- ==== Sys2Proof/Machine/Defaults.lean ====
section
/-! DEFINITION. The values each block takes at power-on, each from the reset table of its chapter. -/

namespace Sys2Proof.Machine

def msToFt (n : Nat) : Nat := n * 256000000
def usToFt (n : Nat) : Nat := n * 256000
def sToFt (n : Nat) : Nat := n * 256000000000

/-- The defaults of R44. -/
def defaultScanParams : ScanParams where
  zone := 0
  nominalMs := 10
  toleranceUs := 10
  stallUs := 2000
  armedTimeoutMs := 5000
  ws := 0
  we := 16777215
  mirrorZero := 0
  rangeScale := 6139750
  rangeOffset := 1280
  nearLimit := 5000
  farLimit := 16777215
  weakThreshold := 64
  qualityPolicy := .keep
  noReturnPolicy := .keep
  azimuthSpan := 0
  drainUs := 20
  defaultColourRange := 1000000
  parallax := 0
  ringSize := 16

/-- The defaults of R102. -/
def defaultCameraSetup : CameraSetup where
  mode := .off
  interval := 4096
  azOffset := 0
  halfWidth := 1048576
  mLow := 0
  mHigh := 16777215
  strobeTimeoutUs := 50000
  tileDeadlineS := 10

def zeroAngCounters : AngCounters := ⟨0, 0, 0, 0, 0, 0, 0⟩
def zeroEcaCounters : EcaCounters := ⟨0, 0, 0, 0, 0, 0, 0, 0, 0, 0, 0, 0⟩
def zeroLnbCounters : LnbCounters := ⟨0, 0, 0, 0⟩
def zeroRngCounters : RngCounters := ⟨0, 0, 0, 0⟩
def zeroExsCounters : ExsCounters := ⟨0, 0, 0, 0⟩
def zeroClrCounters : ClrCounters := ⟨0, 0, 0⟩
def zeroStrCounters : StrCounters := ⟨0, 0⟩
def zeroPrtCounters : PrtCounters := ⟨0, 0, 0⟩

/-- R3: count 0, turn counter 0, NOT ALIGNED, index armed; R8: the history is empty. -/
def axisPowerOn : AxisState := ⟨0, 0, false, true, []⟩

/-- R16, R18: the stall timer is started at power-on, when the timebase is 0. -/
def angPowerOn : Ang where
  mirror := axisPowerOn
  azimuth := axisPowerOn
  travel := 0
  calibration := List.replicate 256 0
  suspect := none
  prevIndex := none
  tm := none
  band := .unknown
  stall := some ⟨0, usToFt defaultScanParams.stallUs⟩
  counters := zeroAngCounters

def ecaPowerOn : Eca := ⟨.down, [], none, none, none, zeroEcaCounters⟩

/-- R43, R57, R60. -/
def scnPowerOn : Scn where
  state := .idle
  inBand := 0
  armed := none
  drain := none
  cause := none
  session := 0
  startAz := none
  startReply := none
  stopReplies := []
  laser := false
  params := defaultScanParams

def lnbPowerOn : Lnb := ⟨none, 0, none, [], [], [], zeroLnbCounters⟩

/-- R81, R95 (the last granted is taken as stream reader 3), R96. -/
def rngPowerOn : Rng where
  committed := []
  closed := []
  openLine := none
  discarding := none
  lostCount := 0
  lostBoundary := none
  mode := .normal
  lastRR := .reader 3
  run := 0
  inProgress := none
  stallCounted := false
  counters := zeroRngCounters

def exsPowerOn : Exs := ⟨defaultCameraSetup, [], 0, defaultCameraSetup.interval, 0, [], 0, zeroExsCounters⟩

/-- R120, R129, R135, R136, R138, R139. -/
def clrPowerOn : Clr where
  slots := []
  tileArea := []
  loader := []
  sectors := List.replicate 64 []
  colourQueue := []
  pass := none
  work := none
  backfillQueue := []
  sweepMark := false
  pendingList := []
  counters := zeroClrCounters

def streamPowerOn : Stream := ⟨false, .settled, 0, 0, false, none, [], none⟩

def clearSense : Sense := ⟨.none, 0, 0, false, 0⟩

/-- R165: every tag idle, the link DOWN; the role comes from the straps. -/
def portPowerOn (role : Role) : Port := ⟨.down, role, Quad.all none, clearSense, [], zeroPrtCounters⟩

/-- The rank order with first position `f`: f up to 11, then 0 up to f − 1 (R185). -/
def rankFrom (f : EventPos) : List EventPos :=
  let all : List EventPos := [0, 1, 2, 3, 4, 5, 6, 7, 8, 9, 10, 11]
  all.drop f.val ++ all.take f.val

/-- R182. -/
def atnPowerOn : Atn := ⟨0, 0, 0, 0, .fixed, 0, rankFrom 0, false⟩

/-- The role of a strap code ROLE1 × 2 + ROLE0 (11.6). -/
def roleOfStraps (code : BitVec 2) : Role :=
  match code with
  | 0 => .control
  | 1 => .imaging
  | 2 => .recording
  | 3 => .viewer

/-- The roles of a part whose straps this row has not sampled: DESIGN CHOICE, log 4 (unsafe). -/
def resetRoles : Quad Role := ⟨.control, .imaging, .recording, .viewer⟩

end Sys2Proof.Machine
end

