-- ==== Sys2Proof/Machine/State.lean ====
section
/-! DEFINITION. The state of the T82, the reasons a step can stop, and the state right after reset. -/

namespace Sys2Proof.Machine

/-- The whole state: the timebase, one record per block, and the queue of waiting commands. -/
structure State where
  tb : Time
  ang : Ang
  eca : Eca
  scn : Scn
  lnb : Lnb
  rng : Rng
  exs : Exs
  clr : Clr
  str : Quad Stream
  strCounters : StrCounters
  prt : Quad Port
  atn : Quad Atn
  pending : List Instr
  deriving DecidableEq, Repr

/-- The spec gives no step that stops the part: every refusal is a reply and every fault a scan state, a counter or an
event. No command raises a fault (safe: there is nothing to raise). -/
inductive Fault where
  deriving DecidableEq, Repr

/-- The reasons a command has no meaning. -/
inductive Refusal where
  /-- Raised only by an arm of exec whose command has no meaning yet; safe. No arm raises it now. -/
  | notModelled (mnemonic : String)
  deriving DecidableEq, Repr

/-- The state with every block in its power-on state and the given roles (R60). -/
def powerOnState (roles : Quad Role) (queue : List Instr) : State where
  tb := 0
  ang := angPowerOn
  eca := ecaPowerOn
  scn := scnPowerOn
  lnb := lnbPowerOn
  rng := rngPowerOn
  exs := exsPowerOn
  clr := clrPowerOn
  str := Quad.all streamPowerOn
  strCounters := zeroStrCounters
  prt := roles.map portPowerOn
  atn := Quad.all atnPowerOn
  pending := queue

/-- The part right after reset (R60), with no command waiting. The roles are log 4's. -/
def State.reset : State := powerOnState resetRoles []

end Sys2Proof.Machine
end

