-- ==== Sys2Proof/Machine/Ops.lean ====
section
/-! DEFINITION. The operations every block shares: saturating counters, timers, the tile area's bytes, raising events,
and handing frames, replies and sense records. -/

namespace Sys2Proof.Machine

/-! ### Counters and timers -/

/-- The value at which a counter, the line number counter, the exposure id counter and the lost count stop. -/
def maxCount : Nat := 4294967295

/-- A 32-bit counter increased by `k`, stopping at its largest value (00_scope, Counters). -/
def bump (n k : Nat) : Nat := min (n + k) maxCount

/-- The ft that have passed since a timer was started, modulo 2^64 (R1). -/
def TimerRun.elapsed (t : TimerRun) (now : Time) : Nat := (now - t.start).toNat

/-- The timer's length has passed. -/
def TimerRun.due (t : TimerRun) (now : Time) : Bool := decide (t.length ≤ t.elapsed now)

/-- The ft left to the expiry. -/
def TimerRun.remaining (t : TimerRun) (now : Time) : Nat := t.length - t.elapsed now

/-- A timer that can expire at `now`: it is running and its length has passed. -/
def timerDue (t : Option TimerRun) (now : Time) : Bool :=
  match t with
  | none => false
  | some r => r.due now

/-! ### Arithmetic (00_scope, Rounding and clamping) -/

/-- `num / den` rounded half up, for negative values as well as positive: floor(x + 1/2). -/
def roundHalfUp (num : Int) (den : Nat) : Int := (2 * num + den) / (2 * den)

/-- Clamp to [lo, hi]. -/
def clampInt (lo hi x : Int) : Int := if x < lo then lo else if hi < x then hi else x

/-- `(a, m)` lies in a window: the azimuth modulo 2^24, the mirror angle as plain integers. -/
def AngularWindow.contains (w : AngularWindow) (a m : Angle) : Bool :=
  decide ((a - w.azStart).toNat < w.azWidth) && decide (w.mLow.toNat ≤ m.toNat) && decide (m.toNat < w.mHigh.toNat)

/-! ### The tile area (R79, 7.2) -/

/-- What a byte of the tile area that nothing has written reads as: DESIGN CHOICE, log 15 (unsafe in name, never seen: a
VALID slot has had every byte of its tile written). -/
def unwrittenByte : Byte := 0

/-- The byte at an address. -/
def Memory.read : Memory → Nat → Byte
  | [], _ => unwrittenByte
  | (a, b) :: rest, x => if x = a then b else Memory.read rest x

/-- The memory with one byte written, in canonical form. -/
def Memory.write : Memory → Nat → Byte → Memory
  | [], x, v => if v = unwrittenByte then [] else [(x, v)]
  | (a, b) :: rest, x, v =>
    if x < a then (if v = unwrittenByte then (a, b) :: rest else (x, v) :: (a, b) :: rest)
    else if x = a then (if v = unwrittenByte then rest else (x, v) :: rest)
    else (a, b) :: Memory.write rest x v

/-- Bytes written at consecutive addresses from `x`. -/
def Memory.writeList : Memory → Nat → List Byte → Memory
  | m, _, [] => m
  | m, x, v :: vs => Memory.writeList (Memory.write m x v) (x + 1) vs

/-- The canonical form: addresses strictly rising, and no entry that reads as an unlisted address does. -/
abbrev Memory.wf (m : Memory) : Prop :=
  m.Pairwise (fun c d => c.1 < d.1) ∧ ∀ c ∈ m, c.2 ≠ unwrittenByte

/-! ### Changing one part of the state -/

def State.modPort (s : State) (p : PortId) (f : Port → Port) : State := { s with prt := s.prt.modify p f }
def State.modStr (s : State) (p : PortId) (f : Stream → Stream) : State := { s with str := s.str.modify p f }
def State.modAtn (s : State) (p : PortId) (f : Atn → Atn) : State := { s with atn := s.atn.modify p f }

def State.port (s : State) (p : PortId) : Port := s.prt.get p
def State.stream (s : State) (p : PortId) : Stream := s.str.get p

/-- The four ports, in ascending order. -/
def allPorts : List PortId := [0, 1, 2, 3]

/-- The four tags, in ascending order. -/
def allTags : List Tag := [0, 1, 2, 3]

/-! ### Events (R183) -/

def evState : EventPos := 0
def evFault : EventPos := 1
def evReady : EventPos := 2
def evOverrun : EventPos := 3
def evLost : EventPos := 4
def evRecolour : EventPos := 5
def evExposed : EventPos := 6
def evNoExposure : EventPos := 7
def evExpired : EventPos := 8
def evEncoder : EventPos := 9
def evRanging : EventPos := 10
def evQuality : EventPos := 11

/-- The set holding one position. -/
def EventSet.single (p : EventPos) : EventSet := 1#12 <<< p.val

def EventSet.has (x : EventSet) (p : EventPos) : Bool := x.getLsbD p.val
def EventSet.insert (x : EventSet) (p : EventPos) : EventSet := x ||| EventSet.single p
def EventSet.erase (x : EventSet) (p : EventPos) : EventSet := x &&& ~~~ EventSet.single p

/-- An ATN takes a raise at position `e` (R183). -/
def Atn.raise (e : EventPos) (link : LinkState) (a : Atn) : Atn :=
  match link with
  | .down => a
  | .up =>
    if a.frozen then
      if EventSet.has a.held e then { a with double := EventSet.insert a.double e }
      else { a with held := EventSet.insert a.held e }
    else if EventSet.has a.pending e then { a with double := EventSet.insert a.double e }
    else { a with pending := EventSet.insert a.pending e }

/-- The level of the attention line (R184). -/
def Atn.line (a : Atn) : Bool := decide (a.pending &&& a.enable ≠ 0#12)

/-- An event raised on one port. -/
def State.raiseOn (s : State) (p : PortId) (e : EventPos) : State :=
  s.modAtn p (Atn.raise e (s.port p).link)

/-- An event raised on all ports: each ATN takes it on its own. -/
def State.raiseAll (s : State) (e : EventPos) : State :=
  { s with atn := s.atn.mapIdx (fun p a => a.raise e (s.port p).link) }

/-! ### Frames, replies and the sense record (R170, R172, R173) -/

/-- A frame handed to the port's outgoing queue; while the link is DOWN no frame is sent (R166). -/
def Port.hand (f : OutFrame) (q : Port) : Port :=
  match q.link with
  | .down => q
  | .up => { q with outgoing := q.outgoing ++ [f] }

/-- The codes 11.5 gives the sense classes. -/
def SenseClass.code : SenseClass → Nat
  | .none => 0
  | .arg => 1
  | .role => 2
  | .state => 3
  | .full => 4
  | .gone => 5
  | .aborted => 6
  | .fault => 7

/-- The codes 11.5 gives the fault causes. -/
def FaultCause.code : FaultCause → Nat
  | .mirrorBand => 1
  | .mirrorStall => 2
  | .mirrorReverse => 3
  | .rangingRecord _ => 4
  | .rangingLink => 5

/-- The rangefinder's code carried in the sense info of a FAULT reply (R55). -/
def FaultCause.info : FaultCause → Option Nat
  | .rangingRecord c => some c.toNat
  | _ => none

/-- A final reply without a sense class, on a tag. -/
def Port.answer (tag : Tag) (st : Status) (q : Port) : Port :=
  q.hand ⟨tag, .reply st .none 0, true⟩

/-- A CHECK reply, which sets the sense record (R173). -/
def Port.refuse (tag : Tag) (cls : SenseClass) (code : Nat) (info : Option Nat) (q : Port) : Port :=
  { q.hand ⟨tag, .reply .check cls code, true⟩ with sense := ⟨cls, code, info.getD 0, info.isSome, tag⟩ }

/-- The command on a tag is no longer in flight: the tag is idle and its frames belong to an ended command. -/
def Port.idleTag (tag : Tag) (q : Port) : Port :=
  { q with
    tags := q.tags.set tag none
    outgoing := q.outgoing.map (fun f => if f.tag = tag then { f with finished := true } else f) }

def State.answer (s : State) (p : PortId) (tag : Tag) (st : Status) : State :=
  s.modPort p (Port.answer tag st)

def State.refuse (s : State) (p : PortId) (tag : Tag) (cls : SenseClass) (code : Nat) (info : Option Nat) : State :=
  s.modPort p (Port.refuse tag cls code info)

/-- ACCEPTED: the command stays in flight. -/
def State.accept (s : State) (p : PortId) (tag : Tag) : State :=
  s.modPort p (Port.hand ⟨tag, .reply .accepted .none 0, false⟩)

/-- The final reply of a command in flight (R170). -/
def State.finish (s : State) (p : PortId) (tag : Tag) (st : Status) : State :=
  s.modPort p (fun q => (q.idleTag tag).answer tag st)

/-- A final CHECK of a command in flight. -/
def State.finishCheck (s : State) (p : PortId) (tag : Tag) (cls : SenseClass) (code : Nat) (info : Option Nat) : State :=
  s.modPort p (fun q => (q.idleTag tag).refuse tag cls code info)

/-- A command takes its tag (R169). -/
def State.hold (s : State) (p : PortId) (tag : Tag) (j : Job) : State :=
  s.modPort p (fun q => { q with tags := q.tags.set tag (some j) })

def State.job (s : State) (p : PortId) (tag : Tag) : Option Job := (s.port p).tags.get tag

/-! ### Taking a client command (R169) -/

/-- Step 1 of R169: the sense record is cleared. -/
def State.clearSense (s : State) (p : PortId) : State :=
  s.modPort p (fun q => { q with sense := Sys2Proof.Machine.clearSense })

/-- Steps 2 and 4 of R169 and then the command's own rule: BUSY when the tag is in flight, ROLE when the role may not
send the command. (Step 3, the code, is UNKNOWN_COMMAND's.) -/
def tagAndRole (p : PortId) (tag : Tag) (allowed : Role → Bool) (body : State → State) (s : State) : State :=
  if (s.job p tag).isSome then s.answer p tag .busy
  else if allowed (s.port p).role then body s
  else s.refuse p tag .role 0 none

/-- A COMMAND frame is taken (R169). While the link is DOWN no frame arrives (R166): nothing happens, log 3. -/
def client (p : PortId) (tag : Tag) (allowed : Role → Bool) (body : State → State) (s : State) : State :=
  match (s.port p).link with
  | .down => s
  | .up => tagAndRole p tag allowed body (s.clearSense p)

/-- SENSE READ skips step 1 (R169, R174). -/
def clientKeepSense (p : PortId) (tag : Tag) (body : State → State) (s : State) : State :=
  match (s.port p).link with
  | .down => s
  | .up => tagAndRole p tag (fun _ => true) body s

/-- TAG ABORT and PORT RESET skip the tag test (R169). -/
def clientSkipTag (p : PortId) (body : State → State) (s : State) : State :=
  match (s.port p).link with
  | .down => s
  | .up => body (s.clearSense p)

/-- Every role may send the command. -/
def everyRole : Role → Bool := fun _ => true

def onlyControl : Role → Bool
  | .control => true
  | _ => false

def onlyImaging : Role → Bool
  | .imaging => true
  | _ => false

def imagingOrControl : Role → Bool
  | .imaging => true
  | .control => true
  | _ => false

/-- Some command in flight, on any port and tag, satisfies `f`. -/
def State.anyJob (s : State) (f : Job → Bool) : Bool :=
  s.prt.toList.any (fun q => q.tags.toList.any (fun j => (j.map f).getD false))

/-- Some command in flight on one port satisfies `f`. -/
def State.anyJobOn (s : State) (p : PortId) (f : Job → Bool) : Bool :=
  (s.port p).tags.toList.any (fun j => (j.map f).getD false)

/-! ### Handing DATA-IN frames (R172) -/

/-- The largest payload of a frame (9.2). -/
def maxPayload : Nat := 1024

/-- Bytes cut into payloads of at most 1,024 (DESIGN CHOICE, log 9: each but the last is full). -/
def payloadsOf (bytes : List Byte) : List (List Byte) :=
  go (bytes.length / maxPayload + 1) bytes
where
  go : Nat → List Byte → List (List Byte)
    | 0, _ => []
    | n + 1, bs => if bs.isEmpty then [] else bs.take maxPayload :: go n (bs.drop maxPayload)

/-- No DATA-IN frame of the tag waits in the queue: the link has taken every one handed so far (log 10). -/
def Port.paced (q : Port) (tag : Tag) : Bool :=
  q.outgoing.all (fun f =>
    match f.body with
    | .dataIn _ => !(decide (f.tag = tag))
    | .reply _ _ _ => true)

/-- An immediate read command hands its first DATA-IN frame, and its DONE when that is the last (R172). The tag stays in
flight while frames remain. -/
def State.deliver (s : State) (p : PortId) (tag : Tag) (code : Byte) (payloads : List (List Byte)) : State :=
  match payloads with
  | [] => s.finish p tag .done
  | [d] => (s.modPort p (Port.hand ⟨tag, .dataIn d, true⟩)).finish p tag .done
  | d :: rest => (s.modPort p (Port.hand ⟨tag, .dataIn d, false⟩)).hold p tag (.reading code rest)

/-- A producer whose frames the link has taken hands the next one (R172, log 10). -/
def State.pump (s : State) (p : PortId) (tag : Tag) : State :=
  match s.job p tag with
  | some (.reading code payloads) => if (s.port p).paced tag then s.deliver p tag code payloads else s
  | _ => s

end Sys2Proof.Machine
end

