-- ==== Sys2Proof/Machine/Operands.lean ====
section
/-! DEFINITION. Reading operands and data blocks: little-endian fields (R190), the count convention (00_scope), and the
blocks of 11.4 with the range tests of their rules. -/

namespace Sys2Proof.Machine

/-- The unsigned field of `n` bytes, least significant byte first. -/
def leNat : List Byte → Nat
  | [] => 0
  | b :: bs => b.toNat + 256 * leNat bs

/-- Bytes `off` to `off + n − 1` as an unsigned field. -/
def field (b : List Byte) (off n : Nat) : Nat := leNat ((b.drop off).take n)

/-- A field of `n` bytes in two's complement. -/
def signedOf (n v : Nat) : Int := if v < 2 ^ (8 * n - 1) then (v : Int) else (v : Int) - (2 ^ (8 * n) : Nat)

/-- Bytes `off` to `off + n − 1` as a signed field. -/
def fieldInt (b : List Byte) (off n : Nat) : Int := signedOf n (field b off n)

def angleField (b : List Byte) (off : Nat) : Angle := BitVec.ofNat 24 (field b off 3)

/-- In a count operand 0 stands for the largest count (00_scope). -/
def countOf (n largest : Nat) : Nat := if n = 0 then largest else n

/-- The W and H bytes of TILE LOAD: 0 means 256 (R122). -/
def gridOf (b : Byte) : Nat := if b = 0 then 256 else b.toNat

/-- `lo ≤ x ≤ hi` -/
def inRange (lo hi x : Nat) : Bool := decide (lo ≤ x) && decide (x ≤ hi)

/-- The number of the first failing test, of tests listed with their numbers in order. -/
def firstFailure : List (Nat × Bool) → Option Nat
  | [] => none
  | (n, ok) :: rest => if ok then firstFailure rest else some n

/-! ### SCAN SETUP block -/

def qualityPolicyOf : Nat → Option QualityPolicy
  | 0 => some .keep
  | 1 => some .drop
  | 2 => some .report
  | _ => none

def noReturnPolicyOf : Nat → Option NoReturnPolicy
  | 0 => some .keep
  | 1 => some .drop
  | _ => none

/-- The parameter set a block spells; a policy code that names none is read as KEEP here and refused by `scanTests`. -/
def scanParamsOf (b : List Byte) : ScanParams where
  zone := field b 0 1
  nominalMs := field b 1 1
  toleranceUs := field b 2 2
  stallUs := field b 4 4
  armedTimeoutMs := field b 8 2
  ws := field b 10 3
  we := field b 13 3
  mirrorZero := field b 16 3
  rangeScale := field b 19 4
  rangeOffset := field b 23 2
  nearLimit := field b 25 3
  farLimit := field b 28 3
  weakThreshold := field b 31 2
  qualityPolicy := (qualityPolicyOf (field b 33 1)).getD .keep
  noReturnPolicy := (noReturnPolicyOf (field b 34 1)).getD .keep
  azimuthSpan := field b 35 4
  drainUs := field b 39 2
  defaultColourRange := field b 41 3
  parallax := fieldInt b 44 4
  ringSize := field b 48 1

/-- The range tests of R44 in field-number order, each with the field it is charged to (R46). Fields whose width holds
no illegal value are not listed. -/
def scanTests (b : List Byte) : List (Nat × Bool) :=
  let q := scanParamsOf b
  [ (1, inRange 0 3 q.zone),
    (2, inRange 5 100 q.nominalMs),
    (3, inRange 1 10000 q.toleranceUs && decide (q.nominalMs ≤ 10 * q.toleranceUs)
          && decide (q.toleranceUs ≤ 100 * q.nominalMs)),
    (4, inRange 100 100000 q.stallUs),
    (5, inRange 100 60000 q.armedTimeoutMs),
    (7, decide (q.ws < q.we)),
    (9, inRange 6000000 6200000 q.rangeScale),
    (12, decide (q.nearLimit ≤ q.farLimit)),
    (14, (qualityPolicyOf (field b 33 1)).isSome),
    (15, (noReturnPolicyOf (field b 34 1)).isSome),
    (17, inRange 2 500 q.drainUs),
    (18, inRange 1 16777215 q.defaultColourRange),
    (20, inRange 1 24 q.ringSize) ]

/-! ### CAMERA SETUP block -/

def cameraModeOf : Nat → Option CameraMode
  | 0 => some .off
  | 1 => some .stations
  | 2 => some .periodic
  | _ => none

def cameraSetupOf (b : List Byte) : CameraSetup where
  mode := (cameraModeOf (field b 0 1)).getD .off
  interval := field b 1 4
  azOffset := fieldInt b 5 4
  halfWidth := field b 9 4
  mLow := field b 13 3
  mHigh := field b 16 3
  strobeTimeoutUs := field b 19 4
  tileDeadlineS := field b 23 2

/-- The range tests of R102 in field-number order. -/
def cameraTests (b : List Byte) : List (Nat × Bool) :=
  let q := cameraSetupOf b
  [ (1, (cameraModeOf (field b 0 1)).isSome),
    (2, inRange 1 65536 q.interval),
    (3, decide (-8388608 ≤ q.azOffset) && decide (q.azOffset ≤ 8388607)),
    (4, inRange 1 4194304 q.halfWidth),
    (6, decide (q.mLow < q.mHigh)),
    (7, inRange 100 1000000 q.strobeTimeoutUs),
    (8, inRange 1 600 q.tileDeadlineS) ]

/-! ### Mask entries -/

def maskActionOf : Nat → Option MaskAction
  | 0 => some .drop
  | 1 => some .tag
  | _ => none

def maskEntryOf (b : List Byte) : MaskEntry where
  azStart := field b 0 4
  azWidth := field b 4 4
  mLow := field b 8 3
  mHigh := field b 11 3
  action := (maskActionOf (field b 14 1)).getD .drop

/-- The tests of R77 on one entry, numbered by their sense codes; `before` is the azimuth start of the entry before. -/
def maskTests (before : Option Nat) (b : List Byte) : List (Nat × Bool) :=
  let e := maskEntryOf b
  [ (1, decide (e.azStart ≤ 16777215) && (before.map (fun x => decide (x < e.azStart))).getD true),
    (2, inRange 1 16777216 e.azWidth),
    (3, decide (e.mLow < e.mHigh)),
    (4, (maskActionOf (field b 14 1)).isSome) ]

/-- Bytes cut into `n` records of `size` bytes. -/
def recordsOf (size : Nat) : Nat → List Byte → List (List Byte)
  | 0, _ => []
  | n + 1, bs => bs.take size :: recordsOf size n (bs.drop size)

/-- The first failing entry, with its index and the sense code (R77). -/
def maskFailure : Nat → Option Nat → List (List Byte) → Option (Nat × Nat)
  | _, _, [] => none
  | i, before, e :: rest =>
    match firstFailure (maskTests before e) with
    | some code => some (i, code)
    | none => maskFailure (i + 1) (some (maskEntryOf e).azStart) rest

/-! ### Stations -/

def stationOf (b : List Byte) : Int := fieldInt b 0 4

/-- The index of the first station that is negative or not above the one before it (R103). -/
def stationFailure : Nat → Option Int → List Int → Option Nat
  | _, _, [] => none
  | i, before, v :: rest =>
    if v < 0 || !((before.map (fun x => decide (x < v))).getD true) then some i
    else stationFailure (i + 1) (some v) rest

/-! ### TILE LOAD descriptor -/

def descriptorOf (b : List Byte) : AngularWindow where
  azStart := angleField b 0
  azWidth := field b 3 3
  mLow := angleField b 6
  mHigh := angleField b 9

/-! ### Calibration -/

/-- The 256 entries of the calibration data, entry 0 first (R15). -/
def calibrationOf (b : List Byte) : List (BitVec 16) :=
  (recordsOf 2 256 b).map (fun e => BitVec.ofNat 16 (leNat e))

end Sys2Proof.Machine
end

