-- ==== Sys2Proof/Machine/Flags.lean ====
section
/-! DEFINITION. The flags of echoes, points and line headers: their bytes (11.5) and the tests made on them. -/

namespace Sys2Proof.Machine

/-- A byte from its bits, bit 0 first. -/
def byteOfBits : List Bool → Nat
  | [] => 0
  | b :: bs => (if b then 1 else 0) + 2 * byteOfBits bs

def noPointFlags : PointFlags := ⟨false, false, false, false, false, false⟩
def noHeaderFlags : HeaderFlags := ⟨false, false, false, false, false, false⟩

def Echo.flagByte (e : Echo) : Nat := byteOfBits [e.near, e.far, e.weak, e.saturated]

def PointFlags.byte (f : PointFlags) : Nat :=
  byteOfBits [f.extrapolated, f.stale, f.suspect, f.echoOverflow, f.noReturn, f.maskTag]

/-- The header flag byte (11.5). -/
def HeaderFlags.byte (f : HeaderFlags) : Nat :=
  byteOfBits [f.truncated, f.aborted, f.suspect, f.pointsDropped, f.colourSkipped, f.quality]

/-- LINE FIND by FLAGS: within the mask the header's flags are exactly those of the value; only the six flags the header
holds are tested (R162). -/
def HeaderFlags.matches (f : HeaderFlags) (mask value : Byte) : Bool :=
  let m := mask &&& 0x3F#8
  decide (BitVec.ofNat 8 f.byte &&& m = value &&& m)

/-- The header flags of a line at its close (R68, R73). -/
def HeaderFlags.atClose (f : HeaderFlags) : CloseCause → HeaderFlags
  | .truncated => { f with truncated := true }
  | .aborted => { f with aborted := true }
  | .newRevolution => f
  | .windowEnd => f
  | .drain => f

/-- An echo is WEAK below the threshold (R32). -/
def isWeak (amplitude : BitVec 16) (threshold : Nat) : Bool := decide (amplitude.toNat < threshold)

end Sys2Proof.Machine
end

