-- ==== Sys2Proof/Machine/Angle.lean ====
section
/-! DEFINITION. ANG, chapter 1: edge histories, the angle at an instant, calibration, index edges, the mirror speed
monitor and the azimuth travel, as functions on ANG's own state. What the reports do is SCN's and EXS's. -/

namespace Sys2Proof.Machine

/-! ### Axis constants (1.2) -/

def mirrorCounts : Nat := 16384
def azimuthCounts : Nat := 65536
def countsPerTurn : Axis → Nat
  | .mirror => mirrorCounts
  | .azimuth => azimuthCounts

/-- au per count -/
def mirrorUnit : Nat := 1024
def azimuthUnit : Nat := 256

/-- The azimuth hold time of R11, 100 ms. -/
def azimuthHold : Nat := 25600000000

/-! ### Edge histories (R8) -/

def historyCapacity : Nat := 32

/-- An edge record enters a history (R8). A record older than the newest never comes, since edges are taken in time
order; it would change nothing. -/
def enterHistory (h : List EdgeRec) (r : EdgeRec) : List EdgeRec :=
  match h.getLast? with
  | none => [r]
  | some n =>
    if n.time.toNat < r.time.toNat then (h ++ [r]).drop (h.length + 1 - historyCapacity)
    else if n.time = r.time then h.dropLast ++ [{ n with count := r.count, turn := r.turn, dir := r.dir }]
    else h

/-! ### The raw angle at an instant (R10 to R13) -/

/-- A raw angle with what R13 needs: the records used and the revolution of the instant (absent for an empty
history). -/
structure RawAnswer where
  raw : Angle
  revolution : Option (BitVec 32)
  used : List EdgeRec
  extrapolated : Bool
  stale : Bool
  deriving DecidableEq, Repr

def Dir.sign : Dir → Int
  | .forward => 1
  | .backward => -1

/-- The consecutive records e0 and e1 with t0 ≤ tp < t1 (R10). -/
def bracket : List EdgeRec → Time → Option (EdgeRec × EdgeRec)
  | e0 :: e1 :: rest, tp =>
    if e0.time.toNat ≤ tp.toNat ∧ tp.toNat < e1.time.toNat then some (e0, e1) else bracket (e1 :: rest) tp
  | _, _ => none

/-- The newest two records, the newer second. -/
def newestTwo : List EdgeRec → Option (EdgeRec × EdgeRec)
  | [] => none
  | [_] => none
  | [e0, e1] => some (e0, e1)
  | _ :: e :: rest => newestTwo (e :: rest)

def angleOfInt (x : Int) : Angle := BitVec.ofInt 24 x

/-- R10: interpolation between the records that bracket tp. -/
def interpolate (u : Nat) (e0 e1 : EdgeRec) (tp : Time) : RawAnswer :=
  let f := roundHalfUp (((tp.toNat - e0.time.toNat) * u : Nat) : Int) (e1.time.toNat - e0.time.toNat)
  ⟨angleOfInt ((e0.count * u : Nat) + e1.dir.sign * f), some e0.turn, [e0, e1], false, false⟩

/-- R11: extrapolation from the newest pair, short of the next count. -/
def extrapolate (u : Nat) (before newest : EdgeRec) (tp : Time) : RawAnswer :=
  let f := clampInt 0 (u - 1 : Nat)
    (roundHalfUp (((tp.toNat - newest.time.toNat) * u : Nat) : Int) (newest.time.toNat - before.time.toNat))
  ⟨angleOfInt ((newest.count * u : Nat) + newest.dir.sign * f), some newest.turn, [before, newest], true, false⟩

/-- A hold at one record. -/
def holdAt (u : Nat) (e : EdgeRec) (extrapolated stale : Bool) : RawAnswer :=
  ⟨angleOfInt (e.count * u : Nat), some e.turn, [e], extrapolated, stale⟩

/-- R11's hold of a stopped or creeping azimuth. -/
def azimuthHeld (before newest : EdgeRec) (tp : Time) : Bool :=
  decide (azimuthHold < newest.time.toNat - before.time.toNat) || decide (azimuthHold < tp.toNat - newest.time.toNat)

/-- The raw angle of an axis at tp, by the first of R10, R11 and R12 whose case applies. Times are ordered as 64-bit counts, a
DESIGN CHOICE where tp lies before a wrap of the timebase and the edges after it, as for a strobe that spans the wrap (log 33):
such a tp then counts as after the newest record. -/
def rawAngle (axis : Axis) (h : List EdgeRec) (tp : Time) : RawAnswer :=
  let u := match axis with
    | .mirror => mirrorUnit
    | .azimuth => azimuthUnit
  match h with
  | [] => ⟨0, none, [], false, true⟩
  | [e] => holdAt u e false true
  | oldest :: _ :: _ =>
    if tp.toNat < oldest.time.toNat then holdAt u oldest false true
    else
      match bracket h tp with
      | some (e0, e1) => interpolate u e0 e1 tp
      | none =>
        match newestTwo h with
        | none => holdAt u oldest false true
        | some (before, newest) =>
          match axis with
          | .mirror => extrapolate u before newest tp
          | .azimuth => if azimuthHeld before newest tp then holdAt u newest true false else extrapolate u before newest tp

/-! ### Calibration (R14) -/

/-- The entry of the table with number `i`, signed. -/
def calibrationEntry (table : List (BitVec 16)) (i : Nat) : Int := (table.getD i 0).toInt

/-- The correction at a raw angle: steps 1 and 2 of R14. -/
def correction (table : List (BitVec 16)) (raw : Angle) : Int :=
  let s := raw.toNat / 65536
  let o := raw.toNat % 65536
  let e0 := calibrationEntry table s
  let e1 := calibrationEntry table ((s + 1) % 256)
  e0 + roundHalfUp ((e1 - e0) * o) 65536

/-- The corrected mirror angle: step 3 of R14. -/
def correctMirror (table : List (BitVec 16)) (mirrorZero : Nat) (raw : Angle) : Angle :=
  angleOfInt ((raw.toNat : Int) + correction table raw - mirrorZero)

/-! ### Queries (R9) -/

structure MirrorAnswer where
  m : Angle
  revolution : BitVec 32
  extrapolated : Bool
  stale : Bool
  suspect : Bool
  deriving DecidableEq, Repr

/-- SUSPECT (R13): the mark is present and names the revolution of a record used. -/
def suspectOf (mark : Option (BitVec 32)) (used : List EdgeRec) : Bool :=
  match mark with
  | none => false
  | some r => used.any (fun e => decide (e.turn = r))

def Ang.mirrorQuery (g : Ang) (mirrorZero : Nat) (tp : Time) : MirrorAnswer :=
  let raw := rawAngle .mirror g.mirror.history tp
  ⟨correctMirror g.calibration mirrorZero raw.raw, raw.revolution.getD g.mirror.turn, raw.extrapolated, raw.stale,
    suspectOf g.suspect raw.used⟩

def Ang.azimuthQuery (g : Ang) (tp : Time) : Angle := (rawAngle .azimuth g.azimuth.history tp).raw

/-- EXTRAPOLATED ANGLES and STALE ANGLES count the mirror answers given with those flags (R9, R20). -/
def Ang.countAnswer (g : Ang) (x : MirrorAnswer) : Ang :=
  { g with counters :=
    { g.counters with
      extrapolatedAngles := bump g.counters.extrapolatedAngles (if x.extrapolated then 1 else 0)
      staleAngles := bump g.counters.staleAngles (if x.stale then 1 else 0) } }

/-! ### Counting and index edges (R3 to R7) -/

/-- The count after a counted edge (R4). -/
def stepCount (n count : Nat) : Dir → Nat
  | .forward => (count + 1) % n
  | .backward => (count + n - 1) % n

/-- The expected value of an index edge (R3). -/
def expectedIndex (n : Nat) : Dir → Nat
  | .forward => 0
  | .backward => n - 1

def stepTurn (turn : BitVec 32) : Dir → BitVec 32
  | .forward => turn + 1
  | .backward => turn - 1

/-- What an edge was found to be (R3, R5 to R7). -/
inductive IndexResult where
  | ordinary
  /-- the first index edge since power-on -/
  | aligning
  /-- an index edge with the expected count -/
  | expected
  /-- an index edge with another count -/
  | mismatched
  /-- a missed index -/
  | missed
  deriving DecidableEq, Repr

/-- Classifies a counted edge whose count is already changed: `count` after the edge, `armed` and `aligned` before
it. -/
def classifyIndex (n count : Nat) (dir : Dir) (indexActive armed aligned : Bool) : IndexResult :=
  if indexActive && armed then
    if !aligned then .aligning
    else if count = expectedIndex n dir then .expected
    else .mismatched
  else if !indexActive && aligned && decide (count = expectedIndex n dir) then .missed
  else .ordinary

/-- The axis after a counted edge and its index check, before the edge record is made. The armed flag is set while the
index input is inactive, and an index edge clears it (R3). -/
def AxisState.counted (x : AxisState) (n : Nat) (dir : Dir) (indexActive : Bool) : AxisState × IndexResult :=
  let count := stepCount n x.count dir
  let armed := if indexActive then x.armed else true
  match classifyIndex n count dir indexActive x.armed x.aligned with
  | .ordinary => ({ x with count := count, armed := armed }, .ordinary)
  | .missed => ({ x with count := count, armed := armed, turn := stepTurn x.turn dir }, .missed)
  | .aligning =>
    ({ x with count := expectedIndex n dir, armed := false, aligned := true, turn := stepTurn x.turn dir }, .aligning)
  | .expected => ({ x with count := count, armed := false, turn := stepTurn x.turn dir }, .expected)
  | .mismatched =>
    ({ x with count := expectedIndex n dir, armed := false, turn := stepTurn x.turn dir }, .mismatched)

/-- The edge record of the axis as it stands enters its history (R4). -/
def AxisState.record (x : AxisState) (t : Time) (dir : Dir) : AxisState :=
  { x with history := enterHistory x.history ⟨t, x.count, x.turn, dir⟩ }

/-- The result counts as an index fault and raises ENCODER (R5 to R7). -/
def IndexResult.isFault : IndexResult → Bool
  | .mismatched => true
  | .missed => true
  | .ordinary => false
  | .aligning => false
  | .expected => false

/-- A forward edge with this result ends a revolution (R17). -/
def IndexResult.endsRevolution : IndexResult → Bool
  | .ordinary => false
  | .aligning => true
  | .expected => true
  | .mismatched => true
  | .missed => true

/-- A counted mirror edge at time t: count, index, suspect mark and edge record (R4 to R6). -/
def Ang.mirrorEdge (g : Ang) (t : Time) (dir : Dir) (indexActive : Bool) : Ang × IndexResult :=
  let (x, r) := g.mirror.counted mirrorCounts dir indexActive
  ({ g with
      mirror := x.record t dir
      suspect := if r.isFault then some g.mirror.turn else g.suspect
      counters := { g.counters with
        mirrorIndexFaults := bump g.counters.mirrorIndexFaults (if r.isFault then 1 else 0) } }, r)

/-- A counted azimuth edge at time t: count, index, edge record and travel (R4, R7, R19). -/
def Ang.azimuthEdge (g : Ang) (t : Time) (dir : Dir) (indexActive : Bool) : Ang × IndexResult :=
  let (x, r) := g.azimuth.counted azimuthCounts dir indexActive
  ({ g with
      azimuth := x.record t dir
      travel := match dir with
        | .forward => g.travel + 1
        | .backward => g.travel - 1
      counters := { g.counters with
        azimuthIndexFaults := bump g.counters.azimuthIndexFaults (if r.isFault then 1 else 0) } }, r)

/-! ### The mirror speed monitor (R16 to R18) -/

/-- The verdict of a measured period (R17). -/
def verdictOf (q : ScanParams) (tm : Time) : Verdict :=
  let d := (tm.toNat : Int) - (msToFt q.nominalMs : Nat)
  if d.natAbs ≤ usToFt q.toleranceUs then .inBand else .outOfBand

/-- A revolution ends at time t (R17). -/
def Ang.endRevolution (g : Ang) (q : ScanParams) (t : Time) : Ang × Verdict :=
  match g.prevIndex with
  | none => ({ g with prevIndex := some t }, .unmeasured)
  | some t0 =>
    let tm := t - t0
    let v := verdictOf q tm
    ({ g with
        prevIndex := some t
        tm := some tm
        band := match v with
          | .inBand => .inBand
          | .outOfBand => .outOfBand
          | .unmeasured => g.band }, v)

/-- The stall timer is started with the stall time as it stands (R18). -/
def Ang.restartStall (g : Ang) (q : ScanParams) (t : Time) : Ang :=
  { g with stall := some ⟨t, usToFt q.stallUs⟩ }

/-- A band loss (R18). -/
def Ang.bandLoss (g : Ang) : Ang :=
  { g with
    band := .outOfBand
    prevIndex := none
    counters := { g.counters with mirrorBandLosses := bump g.counters.mirrorBandLosses 1 } }

/-- A quadrature error: the count does not change and no edge record is made (R4). -/
def Ang.quadratureError (g : Ang) : Axis → Ang
  | .mirror => { g with counters := { g.counters with
      mirrorQuadratureErrors := bump g.counters.mirrorQuadratureErrors 1 } }
  | .azimuth => { g with counters := { g.counters with
      azimuthQuadratureErrors := bump g.counters.azimuthQuadratureErrors 1 } }

/-- The index input of an axis becomes inactive (R3). -/
def Ang.indexInactive (g : Ang) : Axis → Ang
  | .mirror => { g with mirror := { g.mirror with armed := true } }
  | .azimuth => { g with azimuth := { g.azimuth with armed := true } }

/-- ANG's part of the TB wrap (R1, R8, R16). -/
def Ang.wrap (g : Ang) : Ang :=
  { g with
    mirror := { g.mirror with history := [] }
    azimuth := { g.azimuth with history := [] }
    prevIndex := none }

/-- ANG's part of RESTART (1.9, State after each reset). -/
def Ang.restart (g : Ang) (q : ScanParams) (now : Time) : Ang :=
  { g with
    mirror := { g.mirror with history := [] }
    azimuth := { g.azimuth with history := [] }
    suspect := none
    prevIndex := none
    tm := none
    band := .unknown
    stall := some ⟨now, usToFt q.stallUs⟩
    travel := 0
    counters := zeroAngCounters }

end Sys2Proof.Machine
end

