-- ==== Sys2Proof/Machine/Lines.lean ====
section
/-! DEFINITION. LNB, chapter 4: taking points, the open line, the mask list and the Point FIFO, with the arbiter's mode
that follows the FIFO's occupancy (R96). -/

namespace Sys2Proof.Machine

/-! ### The Point FIFO (R69) -/

def fifoCapacity : Nat := 512

/-- A point that would open a line while the FIFO holds more notices than this opens none (R69). -/
def noticeLimit : Nat := 62

/-- A line closes TRUNCATED at this many accepted points (R68). -/
def lineCapacity : Nat := 16384

/-- The line an item belongs to. -/
def FifoItem.line : FifoItem → Nat
  | .openNotice n => n
  | .point n _ => n
  | .closeNotice n _ => n

def FifoItem.isPoint : FifoItem → Bool
  | .point _ _ => true
  | .openNotice _ => false
  | .closeNotice _ _ => false

/-- The occupancy: the number of points held. -/
def fifoPoints (f : List FifoItem) : Nat := f.countP FifoItem.isPoint

/-- The number of line notices held. -/
def fifoNotices (f : List FifoItem) : Nat := f.countP (fun x => !x.isPoint)

/-- The arbiter's mode once the occupancy has become `occ` (R96). -/
def modeAfter (occ : Nat) (m : ArbiterMode) : ArbiterMode :=
  if 384 < occ then .holdOff else if occ < 128 then .normal else m

/-- The Point FIFO with its new contents; the arbiter's mode follows, and a change of mode sets the run of ring writer
grants to 0 (R95, R96). -/
def State.withFifo (s : State) (f : List FifoItem) : State :=
  let mode := modeAfter (fifoPoints f) s.rng.mode
  { s with
    lnb := { s.lnb with fifo := f }
    rng := { s.rng with mode := mode, run := if mode = s.rng.mode then s.rng.run else 0 } }

/-- An item put into the FIFO behind the others. -/
def State.putItem (s : State) (x : FifoItem) : State := s.withFifo (s.lnb.fifo ++ [x])

/-! ### The mask list (R66, R75) -/

/-- The point is inside the entry (R75). -/
def MaskEntry.contains (e : MaskEntry) (a m : Angle) : Bool :=
  decide ((a - BitVec.ofNat 24 e.azStart).toNat < e.azWidth) && decide (e.mLow ≤ m.toNat) && decide (m.toNat < e.mHigh)

/-- The point is inside at least one entry of the given action. -/
def maskedBy (mask : List MaskEntry) (action : MaskAction) (a m : Angle) : Bool :=
  mask.any (fun e => decide (e.action = action) && e.contains a m)

/-! ### Closing and opening lines -/

/-- The revolution of a line closed with this cause becomes spent (R71). -/
def CloseCause.spends : CloseCause → Bool
  | .windowEnd => true
  | .truncated => true
  | .newRevolution => false
  | .drain => false
  | .aborted => false

/-- The open line closes (R71): its header is finished and its close notice goes behind its last point. With no line
open nothing changes. -/
def State.closeLine (s : State) (cause : CloseCause) : State :=
  match s.lnb.openLine with
  | none => s
  | some h =>
    let s1 := s.putItem (.closeNotice h.lineNumber { h with flags := h.flags.atClose cause })
    { s1 with lnb :=
      { s1.lnb with
        openLine := none
        spent := if cause.spends then some h.revolution else s1.lnb.spent } }

/-- The header of a line as R67 starts it. -/
def freshHeader (number : Nat) (session : BitVec 16) (revolution : BitVec 32) : LineHeader where
  lineNumber := number
  session := session
  revolution := revolution
  firstEmission := 0
  lastEmission := 0
  firstA := 0
  lastA := 0
  pointCount := 0
  fifoDropped := 0
  lostBefore := 0
  flags := noHeaderFlags
  colour := .settled
  pendingCount := 0

/-- A line is opened for a point of revolution `rev` (R67). -/
def State.openLine (s : State) (rev : BitVec 32) : State :=
  let n := s.lnb.lineCounter + 1
  let s1 := s.putItem (.openNotice n)
  { s1 with lnb := { s1.lnb with lineCounter := n, openLine := some (freshHeader n s.scn.session rev) } }

/-! ### Accepting a point (R68, R70) -/

/-- The accepted points of a line. -/
def LineHeader.accepted (h : LineHeader) : Nat := h.pointCount + h.fifoDropped

/-- The header after a point is accepted, before it is offered to the FIFO (R68). -/
def LineHeader.acceptPoint (h : LineHeader) (x : FormedPoint) : LineHeader :=
  let first := decide (h.accepted = 0)
  { h with
    firstEmission := if first then x.emission else h.firstEmission
    firstA := if first then x.point.a else h.firstA
    lastEmission := x.emission
    lastA := x.point.a
    flags := { h.flags with
      suspect := h.flags.suspect || x.point.flags.suspect
      quality := h.flags.quality || x.quality } }

def State.setOpenLine (s : State) (h : LineHeader) : State := { s with lnb := { s.lnb with openLine := some h } }

/-- The accepted point is offered to the FIFO (R70): it enters, or it is dropped, and the line's first drop raises
LOST. `h` is the header after R68's updates. -/
def State.offerPoint (s : State) (h : LineHeader) (p : Point) : State :=
  if fifoPoints s.lnb.fifo < fifoCapacity then
    (s.putItem (.point h.lineNumber p)).setOpenLine { h with pointCount := h.pointCount + 1 }
  else
    let s1 := s.setOpenLine
      { h with fifoDropped := h.fifoDropped + 1, flags := { h.flags with pointsDropped := true } }
    let s2 := { s1 with lnb := { s1.lnb with counters :=
      { s1.lnb.counters with fifoDrops := bump s1.lnb.counters.fifoDrops 1 } } }
    if h.flags.pointsDropped then s2 else s2.raiseAll evLost

/-- A point is accepted into the open line with header `h` (R68); its 16,384th closes it TRUNCATED. -/
def State.acceptPoint (s : State) (h : LineHeader) (x : FormedPoint) : State :=
  let s1 := s.offerPoint (h.acceptPoint x) x.point
  if h.accepted + 1 = lineCapacity then s1.closeLine .truncated else s1

/-! ### Taking a point (R63 to R67) -/

/-- R63: a point of another revolution closes the open line. -/
def State.checkRevolution (s : State) (rev : BitVec 32) : State :=
  match s.lnb.openLine with
  | none => s
  | some h => if h.revolution = rev then s else s.closeLine .newRevolution

def Lnb.countClosedRevolution (l : Lnb) : Lnb :=
  { l with counters := { l.counters with closedRevolutionDrops := bump l.counters.closedRevolutionDrops 1 } }

def Lnb.countMaskDrop (l : Lnb) : Lnb :=
  { l with counters := { l.counters with maskDrops := bump l.counters.maskDrops 1 } }

def Lnb.countUnnumbered (l : Lnb) : Lnb :=
  { l with counters := { l.counters with unnumberedPoints := bump l.counters.unnumberedPoints 1 } }

def Lnb.countFifoDrop (l : Lnb) : Lnb :=
  { l with counters := { l.counters with fifoDrops := bump l.counters.fifoDrops 1 } }

/-- R67 and R68: the point joins the open line, or opens one where it can. -/
def State.placePoint (s : State) (x : FormedPoint) : State :=
  match s.lnb.openLine with
  | some h => s.acceptPoint h x
  | none =>
    if s.lnb.lineCounter = maxCount then { s with lnb := s.lnb.countUnnumbered }
    else if noticeLimit < fifoNotices s.lnb.fifo then { s with lnb := s.lnb.countFifoDrop }
    else
      let s1 := s.openLine x.revolution
      s1.acceptPoint (freshHeader (s.lnb.lineCounter + 1) s.scn.session x.revolution) x

/-- R66: a point inside a DROP entry is discarded; inside a TAG entry only, it carries MASK TAG. -/
def State.maskPoint (s : State) (x : FormedPoint) : State :=
  if maskedBy s.lnb.mask .drop x.point.a x.point.m then { s with lnb := s.lnb.countMaskDrop }
  else
    let tagged := maskedBy s.lnb.mask .tag x.point.a x.point.m
    s.placePoint { x with point := { x.point with flags := { x.point.flags with maskTag := tagged } } }

/-- LNB takes a point (R63 to R68), each whole before the next. -/
def State.takePoint (s : State) (x : FormedPoint) : State :=
  let s1 := s.checkRevolution x.revolution
  let m := x.point.m.toNat
  if s1.scn.params.we ≤ m then s1.closeLine .windowEnd
  else if m < s1.scn.params.ws then s1
  else if s1.lnb.spent = some x.revolution then { s1 with lnb := s1.lnb.countClosedRevolution }
  else s1.maskPoint x

/-! ### The drain mark, FAULT, RUNNING, the abandonment report -/

def State.clearSpent (s : State) : State := { s with lnb := { s.lnb with spent := none } }

/-- LNB takes the drain mark (R72). -/
def State.drainMark (s : State) : State := (s.closeLine .drain).clearSpent

/-- LNB's part of entry to FAULT (R73). -/
def State.abortLine (s : State) : State := (s.closeLine .aborted).clearSpent

/-- LNB takes an abandonment report naming line `n` (R74). -/
def Lnb.takeReport (l : Lnb) (n : Nat) : Lnb :=
  match l.openLine with
  | none => l
  | some h => if h.lineNumber = n then { l with openLine := none, spent := some h.revolution } else l

/-- LNB's part of RESTART (R61). -/
def Lnb.restart (l : Lnb) : Lnb :=
  { l with openLine := none, spent := none, fifo := [], reports := [], counters := zeroLnbCounters }

end Sys2Proof.Machine
end

