-- ==== Sys2Proof/Machine/Records.lean ====
section
/-! DEFINITION. The byte layouts of the records the part sends (11.1, 11.5). -/

namespace Sys2Proof.Machine

/-- A field of `n` bytes, least significant byte first (R190). -/
def leBytes : Nat → Nat → List Byte
  | 0, _ => []
  | n + 1, v => BitVec.ofNat 8 v :: leBytes n (v / 256)

def zeros (n : Nat) : List Byte := List.replicate n 0

/-- A field of `n` bytes of all ones: an absent time or deadline (R190). -/
def allOnes (n : Nat) : List Byte := List.replicate n 0xFF

/-- A flag as one byte, 1 for set. The records of 11.5 give this. For the flags and levels of STATUS READ R194 gives none:
there it is a DESIGN CHOICE (log 30). -/
def boolByte (b : Bool) : List Byte := leBytes 1 (if b then 1 else 0)

/-! ### Lines, points, echoes -/

def LineColour.code : LineColour → Nat
  | .settled => 0
  | .pending => 1

/-- The 48-byte line header. -/
def LineHeader.bytes (h : LineHeader) : List Byte :=
  leBytes 4 h.lineNumber ++ leBytes 2 h.session.toNat ++ leBytes 4 h.revolution.toNat
    ++ leBytes 8 h.firstEmission.toNat ++ leBytes 8 h.lastEmission.toNat
    ++ leBytes 3 h.firstA.toNat ++ leBytes 3 h.lastA.toNat
    ++ leBytes 2 h.pointCount ++ leBytes 2 h.fifoDropped ++ leBytes 4 h.lostBefore
    ++ leBytes 1 h.flags.byte ++ leBytes 1 h.colour.code ++ leBytes 2 h.pendingCount ++ zeros 4

def Echo.bytes (e : Echo) : List Byte :=
  leBytes 3 e.range.toNat ++ leBytes 2 e.amplitude.toNat ++ leBytes 1 e.width.toNat ++ leBytes 1 e.flagByte ++ zeros 1

def PointColour.code : PointColour → Nat
  | .absent => 0
  | .pending => 1
  | .present => 2

/-- A point record: 12 bytes, then 8 for each echo (R80). -/
def Point.bytes (p : Point) : List Byte :=
  leBytes 3 p.m.toNat ++ leBytes 3 p.a.toNat
    ++ leBytes 1 (p.echoes.length + 8 * p.colourState.code) ++ leBytes 1 p.flags.byte
    ++ [p.colour.r, p.colour.g, p.colour.b, p.colourTag]
    ++ p.echoes.flatMap Echo.bytes

/-! ### Windows, exposures, tiles -/

def AngularWindow.bytes (w : AngularWindow) : List Byte :=
  leBytes 3 w.azStart.toNat ++ leBytes 3 w.azWidth ++ leBytes 3 w.mLow.toNat ++ leBytes 3 w.mHigh.toNat

def ExposureState.code : ExposureState → Nat
  | .triggered => 1
  | .exposed => 2
  | .loading => 3
  | .tiled => 4
  | .expired => 5
  | .dropped => 6
  | .missed => 7

/-- The low 48 bits of a time, or all ones when it is absent (R190). -/
def time48 : Option Time → List Byte
  | some t => leBytes 6 t.toNat
  | none => allOnes 6

/-- The ft of the remaining deadline, where there is one: to the expiry in EXPOSED, held in LOADING (R112, R116). -/
def Exposure.remainingFt (e : Exposure) (now : Time) : Option Nat :=
  match e.deadline with
  | some t => some (t.remaining now)
  | none => e.held

/-- A time in ft as whole µs, rounded down. -/
def ftToUs (n : Nat) : Nat := n / 256000

/-- The 44-byte exposure record. -/
def Exposure.bytes (e : Exposure) (now : Time) : List Byte :=
  leBytes 4 e.id ++ leBytes 1 e.state.code ++ leBytes 1 (e.slot.getD 255)
    ++ time48 (some e.triggerTime) ++ time48 e.start ++ time48 e.endTime
    ++ (match e.window with
        | some w => w.bytes
        | none => zeros 12)
    ++ (match e.remainingFt now with
        | some n => leBytes 4 (ftToUs n)
        | none => allOnes 4)
    ++ boolByte e.start.isSome ++ zeros 3

def SlotState.code : SlotState → Nat
  | .loading => 1
  | .valid => 2
  | .retiring => 3

/-- The 24-byte tile list entry; `overlapped` and `indexed` are the sector counts of R128. -/
def TileSlot.bytes (t : TileSlot) (overlapped indexed : Nat) : List Byte :=
  leBytes 1 t.slot ++ leBytes 1 t.state.code ++ leBytes 1 t.w ++ leBytes 1 t.h ++ leBytes 1 t.priority
    ++ leBytes 1 t.pins ++ leBytes 1 overlapped ++ leBytes 1 indexed ++ leBytes 4 t.exposure ++ t.window.bytes

/-! ### Sense, events, checks -/

/-- The 12-byte sense record. -/
def Sense.bytes (x : Sense) : List Byte :=
  leBytes 1 x.cls.code ++ leBytes 1 x.code ++ boolByte x.valid ++ leBytes 1 x.tag.val ++ leBytes 4 x.info ++ zeros 4

/-- The 8-byte event report: the position (255 for none), the double flag, and the sets after the step (R186). -/
def eventReport (position : Option EventPos) (double : Bool) (a : Atn) : List Byte :=
  leBytes 1 ((position.map (fun p => p.val)).getD 255) ++ boolByte double ++ leBytes 2 a.pending.toNat
    ++ leBytes 2 a.held.toNat ++ boolByte a.frozen ++ zeros 1

/-- The LINES CHECK report. -/
def checkReport (mark : Option Nat) (lines : List Nat) : List Byte :=
  leBytes 4 (mark.getD 0) ++ boolByte mark.isSome ++ leBytes 1 lines.length ++ zeros 2 ++ lines.flatMap (leBytes 4)

def Role.code : Role → Nat
  | .control => 0
  | .imaging => 1
  | .recording => 2
  | .viewer => 3

end Sys2Proof.Machine
end

