-- ==== Sys2Proof/Machine/Streams.lean ====
section
/-! DEFINITION. STR, chapter 8: deliverability, delivery, release, read checks and the ends of LINES READ. -/

namespace Sys2Proof.Machine

/-! ### Lines of the ring (R80, R81) -/

def RingLine.number (l : RingLine) : Nat := l.header.lineNumber

/-- The bytes of a point record (R80). -/
def Point.size (p : Point) : Nat := 12 + 8 * p.echoes.length

def pointsSize (ps : List Point) : Nat := (ps.map Point.size).sum

def headerSize : Nat := 48

/-- The space a line takes in the ring (R80). -/
def RingLine.size (l : RingLine) : Nat := headerSize + pointsSize l.points

/-- The committed line with a number. -/
def Rng.lookup (r : Rng) (n : Nat) : Option RingLine := r.committed.find? (fun l => decide (l.number = n))

/-! ### Deliverability (R147) -/

/-- The committed line with the lowest number above the read point. -/
def candidate (r : Rng) (st : Stream) : Option RingLine :=
  r.committed.find? (fun l => decide (st.readPoint < l.number))

/-- The line the stream would be given now. During a back-fill step the header copy still holds the colour state from
before the step, since a step writes it at its end (R142). -/
def deliverable (r : Rng) (st : Stream) : Option RingLine :=
  if st.isOpen then
    match candidate r st with
    | none => none
    | some l =>
      match st.mode with
      | .asis => some l
      | .settled => if l.header.colour = .settled then some l else none
  else none

def State.deliverable (s : State) (p : PortId) : Option RingLine := Machine.deliverable s.rng (s.stream p)

/-- READY is raised on each port whose stream has a deliverable line now and had none in `before` (R154). -/
def State.raiseReady (before s : State) : State :=
  allPorts.foldl
    (fun s p => if (before.deliverable p).isNone && (s.deliverable p).isSome then s.raiseOn p evReady else s) s

/-! ### The DRAM requester of a stream (R97) -/

/-- The transfer in progress, if it is the requester's, is no longer wanted. -/
def State.withdraw (s : State) (o : TransferOwner) : State :=
  { s with rng :=
    { s.rng with inProgress := s.rng.inProgress.map (fun t => if t.owner = o then { t with wanted := false } else t) } }

/-! ### Delivery (R149 to R151) -/

def PassKind.isStep : PassKind → Bool
  | .firstPass => false
  | .task _ => true
  | .sweep => true

/-- A back-fill step is in progress on line `n`. -/
def State.stepOn (s : State) (n : Nat) : Bool :=
  match s.clr.pass with
  | none => false
  | some x => x.kind.isStep && decide (x.line = n)

/-- Some stream reader holds line `n` (R150). -/
def State.lineHeld (s : State) (n : Nat) : Bool :=
  s.str.toList.any (fun st =>
    match st.read with
    | some ⟨_, _, .delivering l true _⟩ => decide (l = n)
    | _ => false)

def State.setRead (s : State) (p : PortId) (r : Option LinesRead) : State :=
  s.modStr p (fun st => { st with read := r })

/-- The reader takes its hold on line `n` and hands the header, taken from RNG's copy (R150). -/
def State.holdLine (s : State) (p : PortId) (r : LinesRead) (n : Nat) : State :=
  match s.rng.lookup n with
  | none => s
  | some l =>
    (s.setRead p (some { r with state := .delivering n true headerSize })).modPort p
      (Port.hand ⟨r.tag, .dataIn l.header.bytes, false⟩)

/-- The LINES READ becomes DELIVERING line `n`; a reader that reaches a line under a back-fill step waits for the step
(R142, R150). -/
def State.beginLine (s : State) (p : PortId) (r : LinesRead) (n : Nat) : State :=
  if s.stepOn n then s.setRead p (some { r with state := .delivering n false 0 })
  else s.holdLine p r n

/-- A reader that may begin does: one WAITING with a deliverable line (R149), or one that waited for a step that is
over (R150). -/
def State.beginRead (s : State) (p : PortId) : State :=
  match (s.stream p).read with
  | none => s
  | some r =>
    match r.state with
    | .waiting =>
      match s.deliverable p with
      | none => s
      | some l => s.beginLine p r l.number
    | .delivering _ true _ => s
    | .delivering n false _ => if s.stepOn n then s else s.holdLine p r n

def State.beginReads (s : State) : State := allPorts.foldl State.beginRead s

/-- The bytes of a line's delivery (R150): the header copy, then the point records as they stand. -/
def RingLine.bytes (l : RingLine) : List Byte := l.header.bytes ++ l.points.flatMap Point.bytes

/-- The LINES READ is no longer outstanding and its reader withdraws its request (R151, R153). -/
def State.stopRead (s : State) (p : PortId) : State := (s.setRead p none).withdraw (.reader p)

/-- A LINES READ that stops after a delivery ends DONE; READY when a line is still deliverable (R151). -/
def State.endRead (s : State) (p : PortId) (tag : Tag) : State :=
  let s1 := (s.stopRead p).finish p tag .done
  if (s1.deliverable p).isSome then s1.raiseOn p evReady else s1

/-! ### Read checks (R157 to R159) -/

def tableCapacity : Nat := 64

/-- The entry evicted from a full table: the oldest WATCHING one, or the oldest of all. -/
def evicted (t : List CheckEntry) : Option CheckEntry :=
  match t.find? (fun e => decide (e.state = .watching)) with
  | some e => some e
  | none => t.head?

/-- An entry for line `n` is made (R158); the flag says that one was evicted. -/
def Stream.watch (st : Stream) (n : Nat) : Stream × Bool :=
  if st.table.length < tableCapacity then ({ st with table := st.table ++ [⟨n, .watching⟩] }, false)
  else
    match evicted st.table with
    | none => ({ st with table := st.table ++ [⟨n, .watching⟩] }, false)
    | some e =>
      ({ st with
          table := st.table.erase e ++ [⟨n, .watching⟩]
          unsure := match st.unsure with
            | none => some e.line
            | some u => some (max u e.line) }, true)

/-- An entry for line `n` is made on port `p`, counting an eviction. -/
def State.makeEntry (s : State) (p : PortId) (n : Nat) : State :=
  let (st, ev) := (s.stream p).watch n
  { s.modStr p (fun _ => st) with strCounters :=
    { s.strCounters with checkEvictions := bump s.strCounters.checkEvictions (if ev then 1 else 0) } }

/-- The delivery of line `n` is complete (R150, steps 1 to 4), and the reader goes on or ends (R151). -/
def State.completeDelivery (s : State) (p : PortId) (r : LinesRead) (l : RingLine) : State :=
  let left := r.remaining - 1
  let s1 := s.modStr p (fun st => { st with readPoint := l.number, read := some { r with remaining := left, state := .waiting } })
  let s2 :=
    match (s.stream p).mode, l.header.colour with
    | .asis, .pending => s1.makeEntry p l.number
    | _, _ => s1
  if left = 0 then s2.endRead p r.tag
  else
    match s2.deliverable p with
    | none => s2.endRead p r.tag
    | some next => s2.beginLine p { r with remaining := left } next.number

/-- The table's entry for line `n`, if any, turns CHANGED. -/
def Stream.markChanged (st : Stream) (n : Nat) : Stream :=
  { st with table := st.table.map (fun e => if e.line = n then { e with state := .changed } else e) }

def Stream.watches (st : Stream) (n : Nat) : Bool := st.table.any (fun e => decide (e.line = n))

/-- The change notice for line `n` at one port (R159). -/
def State.changeNoticeOn (n : Nat) (s : State) (p : PortId) : State :=
  if (s.stream p).watches n then (s.modStr p (fun st => st.markChanged n)).raiseOn p evRecolour else s

/-- The change notice for line `n` (R159). -/
def State.changeNotice (s : State) (n : Nat) : State := allPorts.foldl (State.changeNoticeOn n) s

/-! ### Reclaim (R87, R152, R157) -/

/-- The stream is advanced by the reclaim of line `n`: open, non-essential, with its release point below `n`. -/
def Stream.overrunBy (st : Stream) (n : Nat) : Bool :=
  st.isOpen && !st.essential && decide (st.releasePoint < n)

/-- The points of an advanced stream (R87). -/
def Stream.advance (st : Stream) (n : Nat) : Stream :=
  { st with readPoint := max st.readPoint n, releasePoint := n }

def Stream.forget (st : Stream) (n : Nat) : Stream :=
  { st with table := st.table.filter (fun e => decide (e.line ≠ n)) }

/-- The stream is delivering line `n`. -/
def Stream.delivers (st : Stream) (n : Nat) : Option LinesRead :=
  match st.read with
  | some r =>
    match r.state with
    | .delivering l _ _ => if l = n then some r else none
    | .waiting => none
  | none => none

/-- A delivery cut by the reclaim of the line (R152). No READY is raised for a later line that is deliverable, a DESIGN CHOICE
(log 34): R154 speaks of the end of R151, 10.1 of a LINES READ that ends. -/
def State.cutDelivery (s : State) (p : PortId) (r : LinesRead) (n : Nat) : State :=
  let s1 := (s.stopRead p).finishCheck p r.tag .gone 0 (some n)
  { s1 with strCounters := { s1.strCounters with cutDeliveries := bump s1.strCounters.cutDeliveries 1 } }

/-- STR takes RNG's reclaim notice for line `n` at one port (R87, R152, R157). -/
def State.reclaimOn (n : Nat) (s : State) (p : PortId) : State :=
  let st := s.stream p
  let s1 := s.modStr p (fun st => st.forget n)
  if st.overrunBy n then
    let s2 := (s1.modStr p (fun st => st.advance n)).raiseOn p evOverrun
    let s3 := { s2 with rng := { s2.rng with counters :=
      { s2.rng.counters with streamOverruns := bump s2.rng.counters.streamOverruns 1 } } }
    match st.delivers n with
    | none => s3
    | some r => s3.cutDelivery p r n
  else s1

def State.strReclaim (s : State) (n : Nat) : State := allPorts.foldl (State.reclaimOn n) s

/-! ### Closing (R156) -/

/-- The stream closed: the mode and both points keep their values for STATUS READ (R146). -/
def Stream.closed (st : Stream) : Stream :=
  { st with isOpen := false, essential := false, read := none, table := [], unsure := none }

/-- The stream of a port is closed; an outstanding LINES READ ends CHECK ABORTED when `replies` is set and without a
reply when it is clear (R156). With the stream CLOSED nothing changes. -/
def State.closeStream (s : State) (p : PortId) (replies : Bool) : State :=
  if (s.stream p).isOpen then
    let s1 := s.stopRead p
    let s2 :=
      match (s.stream p).read with
      | none => s1
      | some r => if replies then s1.finishCheck p r.tag .aborted 0 none else s1
    s2.modStr p Stream.closed
  else s

/-- Every stream closed, at a change of ring size (R46). -/
def State.closeStreams (s : State) : State := allPorts.foldl (fun s p => s.closeStream p true) s

/-! ### Opening (R148) -/

inductive StreamStart where
  | oldest
  | newest
  | from (n : Nat)
  deriving DecidableEq, Repr

def streamModeOf : Nat → Option StreamMode
  | 0 => some .settled
  | 1 => some .asis
  | _ => none

def streamStartOf (n line : Nat) : Option StreamStart :=
  match n with
  | 0 => some .oldest
  | 1 => some .newest
  | 2 => some (.from line)
  | _ => none

def Rng.oldest (r : Rng) : Option Nat := r.committed.head?.map RingLine.number
def Rng.newest (r : Rng) : Option Nat := r.committed.getLast?.map RingLine.number

/-- The start line S (R148). -/
def startLineOf (r : Rng) : StreamStart → Nat
  | .oldest => r.oldest.getD 1
  | .newest => r.newest.getD 1
  | .from 0 => r.oldest.getD 1
  | .from (n + 1) => max (n + 1) (r.oldest.getD (n + 1))

/-- The stream opened at start line `n` (R148). -/
def openedStream (mode : StreamMode) (role : Role) (n : Nat) : Stream where
  isOpen := true
  mode := mode
  readPoint := n - 1
  releasePoint := n - 1
  essential := decide (role = .recording)
  read := none
  table := []
  unsure := none

end Sys2Proof.Machine
end

