-- ==== Sys2Proof/Machine/Colour.lean ====
section
/-! DEFINITION. CLR, chapter 7: the tile table, the sector index, the colour of a point, passes and back-fill, with the
answers EXS gives CLR (R114). -/

namespace Sys2Proof.Machine

/-! ### The tile table (R120) -/

def slotCount : Nat := 48
def slotBytes : Nat := 196608
def sectorCount : Nat := 64
def sectorWidth : Nat := 262144
def sectorCapacity : Nat := 8

def Clr.slot (c : Clr) (k : Nat) : Option TileSlot := c.slots.find? (fun t => decide (t.slot = k))

/-- The lowest-numbered FREE slot (R123). -/
def Clr.freeSlot (c : Clr) : Option Nat := (List.range slotCount).find? (fun k => (c.slot k).isNone)

/-- A slot that is not FREE put in its place; the list ascends in slot number. -/
def insertSlot (t : TileSlot) : List TileSlot → List TileSlot
  | [] => [t]
  | u :: us => if t.slot < u.slot then t :: u :: us else u :: insertSlot t us

def Clr.mapSlot (c : Clr) (k : Nat) (f : TileSlot → TileSlot) : Clr :=
  { c with slots := c.slots.map (fun t => if t.slot = k then f t else t) }

/-- The slot becomes FREE: it holds none of its fields. -/
def Clr.dropSlot (c : Clr) (k : Nat) : Clr := { c with slots := c.slots.filter (fun t => decide (t.slot ≠ k)) }

/-! ### The sector index (R129 to R131) -/

/-- The azimuths of a window alone. -/
def AngularWindow.containsAz (w : AngularWindow) (a : Angle) : Bool := decide ((a - w.azStart).toNat < w.azWidth)

/-- A window overlaps sector `k` (R129). -/
def AngularWindow.overlaps (w : AngularWindow) (k : Nat) : Bool :=
  w.containsAz (BitVec.ofNat 24 (k * sectorWidth)) || decide (w.azStart.toNat / sectorWidth = k)

/-- `t` ranks above `u`: higher priority first, then the higher exposure id (R129). -/
def TileSlot.above (t u : TileSlot) : Bool :=
  decide (u.priority < t.priority) || (decide (t.priority = u.priority) && decide (u.exposure < t.exposure))

/-- A slot inserted in a list of slots at its rank. -/
def insertRanked (t : TileSlot) : List TileSlot → List TileSlot
  | [] => [t]
  | u :: us => if t.above u then t :: u :: us else u :: insertRanked t us

/-- The slots a sector list names, in its order. -/
def Clr.listed (c : Clr) (sector : List Nat) : List TileSlot := sector.filterMap c.slot

/-- A slot that has become VALID inserted in one sector list (R130); the flag says that SECTOR EXCLUSIONS counts. -/
def insertInSector (c : Clr) (t : TileSlot) (sector : List Nat) : List Nat × Bool :=
  let ts := c.listed sector
  if ts.length < sectorCapacity then ((insertRanked t ts).map TileSlot.slot, false)
  else
    match ts.getLast? with
    | none => ((insertRanked t ts).map TileSlot.slot, false)
    | some last =>
      if t.above last then ((insertRanked t ts.dropLast).map TileSlot.slot, true) else (sector, true)

/-- The sector lists with their numbers. -/
def Clr.numbered (c : Clr) : List (List Nat × Nat) := c.sectors.zipIdx

/-- A slot inserted in every sector its window overlaps (R130). -/
def Clr.insertInIndex (c : Clr) (t : TileSlot) : Clr :=
  let rows := c.numbered.map (fun (l, k) => if t.window.overlaps k then insertInSector c t l else (l, false))
  { c with
    sectors := rows.map (·.1)
    counters := { c.counters with
      sectorExclusions := bump c.counters.sectorExclusions (rows.countP (·.2)) } }

/-- The best 8 of all VALID slots whose windows overlap sector `k`, in rank order (R131). -/
def Clr.bestOf (c : Clr) (k : Nat) : List Nat :=
  let ts := c.slots.filter (fun t => decide (t.state = .valid) && t.window.overlaps k)
  ((ts.foldl (fun acc t => insertRanked t acc) []).take sectorCapacity).map TileSlot.slot

/-- Each sector a window overlaps rebuilt (R131); `c` holds the table after the slot has left VALID. -/
def Clr.rebuild (c : Clr) (w : AngularWindow) : Clr :=
  { c with sectors := c.numbered.map (fun (l, k) => if w.overlaps k then c.bestOf k else l) }

/-- The number of sectors the window overlaps (R128). -/
def overlappedSectors (w : AngularWindow) : Nat := (List.range sectorCount).countP w.overlaps

/-- The number of sectors whose list holds the slot (R128). -/
def Clr.indexedSectors (c : Clr) (k : Nat) : Nat := c.sectors.countP (fun l => l.contains k)

/-! ### EXS's answer about a direction (R114) -/

def ExposureState.isLive : ExposureState → Bool
  | .exposed => true
  | .loading => true
  | .triggered => false
  | .tiled => false
  | .expired => false
  | .dropped => false
  | .missed => false

/-- The lowest exposure id in EXPOSED or LOADING whose expected window contains the direction. The log ascends. -/
def Exs.liveExposureAt (x : Exs) (a m : Angle) : Option Nat :=
  (x.log.find? (fun e => e.state.isLive && ((e.window.map (fun w => w.contains a m)).getD false))).map Exposure.id

/-! ### The colour of one point (R132 to R134) -/

/-- The colour range r_c (R132, step 1). -/
def colourRange (q : ScanParams) (p : Point) : Nat :=
  match p.echoes with
  | [] => q.defaultColourRange
  | e :: _ => if e.range = 0 then q.defaultColourRange else e.range.toNat

/-- The parallax shift q (R132, step 2). -/
def parallaxShift (q : ScanParams) (p : Point) : Int :=
  clampInt (-262144) 262144 (roundHalfUp (q.parallax * 10) (colourRange q p))

/-- The colour azimuth a_c (R132, step 3). -/
def colourAzimuth (q : ScanParams) (p : Point) : Angle := angleOfInt ((p.a.toNat : Int) + parallaxShift q p)

/-- The first slot in the sector's list whose window contains the direction (R133). -/
def Clr.tileAt (c : Clr) (a m : Angle) : Option TileSlot :=
  (c.listed (c.sectors.getD (a.toNat / sectorWidth) [])).find? (fun t => t.window.contains a m)

/-- The address of the R byte of the cell a direction falls in (7.2, R133). -/
def TileSlot.cellAddress (t : TileSlot) (a m : Angle) : Nat :=
  let column := (a - t.window.azStart).toNat * t.w / t.window.azWidth
  let row := (m.toNat - t.window.mLow.toNat) * t.h / (t.window.mHigh.toNat - t.window.mLow.toNat)
  t.slot * slotBytes + (row * t.w + column) * 3

/-- The colour exposure tag: the low 8 bits of an exposure id (R193). -/
def colourTagOf (id : Nat) : Byte := BitVec.ofNat 8 id

/-- The point with its three colour fields as one evaluation gives them, and the slot whose cell was read. -/
def evaluate (q : ScanParams) (c : Clr) (x : Exs) (p : Point) : Point × Option Nat :=
  let a := colourAzimuth q p
  match c.tileAt a p.m with
  | some t =>
    let at0 := t.cellAddress a p.m
    ({ p with
        colourState := .present
        colour := ⟨Memory.read c.tileArea at0, Memory.read c.tileArea (at0 + 1), Memory.read c.tileArea (at0 + 2)⟩
        colourTag := colourTagOf t.exposure }, some t.slot)
  | none =>
    match x.liveExposureAt a p.m with
    | some e => ({ p with colourState := .pending, colour := ⟨0, 0, 0⟩, colourTag := colourTagOf e }, none)
    | none => ({ p with colourState := .absent, colour := ⟨0, 0, 0⟩, colourTag := 0 }, none)

/-! ### Passes and steps (R137, R142, R143) -/

/-- The points of the line a pass runs on: of the closed-line list for a first pass, of the committed list for a
step. -/
def State.passLine (s : State) (x : Pass) : Option RingLine :=
  match x.kind with
  | .firstPass => (s.rng.closed.find? (fun l => decide (l.line.number = x.line))).map ClosedLine.line
  | .task _ => s.rng.lookup x.line
  | .sweep => s.rng.lookup x.line

/-- The pass evaluates a point: every point in a first pass, the points PENDING with the task's tag in a step of a task
(R142, R193), every PENDING point in a step of the sweep (R143). -/
def PassKind.evaluates (k : PassKind) (p : Point) : Bool :=
  match k with
  | .firstPass => true
  | .task e => decide (p.colourState = .pending) && decide (p.colourTag = colourTagOf e)
  | .sweep => decide (p.colourState = .pending)

/-- What a point counts toward the pass's tally, from its new colour state: PENDING in a first pass, no longer PENDING
in a step. -/
def PassKind.counts (k : PassKind) (p : Point) : Nat :=
  match k with
  | .firstPass => if p.colourState = .pending then 1 else 0
  | .task _ => if p.colourState = .pending then 0 else 1
  | .sweep => if p.colourState = .pending then 0 else 1

/-- The three colour fields of a record written from one evaluation (R118). -/
def Point.recolour (p q : Point) : Point :=
  { p with colourState := q.colourState, colour := q.colour, colourTag := q.colourTag }

/-- The colour fields of a line's record number `i` written. -/
def RingLine.recolour (i : Nat) (q : Point) (l : RingLine) : RingLine :=
  { l with points := l.points.modify i (fun p => p.recolour q) }

/-- A line of the ring changed, by its number. -/
def Rng.mapCommitted (r : Rng) (n : Nat) (f : RingLine → RingLine) : Rng :=
  { r with committed := r.committed.map (fun l => if l.number = n then f l else l) }

def Rng.mapClosed (r : Rng) (n : Nat) (f : ClosedLine → ClosedLine) : Rng :=
  { r with closed := r.closed.map (fun l => if l.line.number = n then f l else l) }

def Rng.mapPassLine (r : Rng) (x : Pass) (f : RingLine → RingLine) : Rng :=
  match x.kind with
  | .firstPass => r.mapClosed x.line (fun l => { l with line := f l.line })
  | .task _ => r.mapCommitted x.line f
  | .sweep => r.mapCommitted x.line f

/-- A slot whose cell has been read is pinned until the pass ends (R121). -/
def Clr.pin (c : Clr) : Option Nat → Clr
  | none => c
  | some k => c.mapSlot k (fun t => { t with pins := 1 })

/-- The pass deals with its next point record: it is evaluated and its three colour fields written, or passed over. -/
def State.colourNext (s : State) : State :=
  match s.clr.pass with
  | none => s
  | some x =>
    match (s.passLine x).bind (fun l => l.points[x.done]?) with
    | none => s
    | some p =>
      if x.kind.evaluates p then
        let (p', cell) := evaluate s.scn.params s.clr s.exs p
        { s with
          rng := s.rng.mapPassLine x (RingLine.recolour x.done p')
          clr := { s.clr.pin cell with
            pass := some { x with done := x.done + 1, tally := x.tally + x.kind.counts p' } } }
      else { s with clr := { s.clr with pass := some { x with done := x.done + 1 } } }

def State.colourPoints : Nat → State → State
  | 0, s => s
  | n + 1, s => State.colourPoints n s.colourNext

/-- Every point of the line has been dealt with: what is left is the header and the end. -/
def State.passAtEnd (s : State) (x : Pass) : Bool :=
  match s.passLine x with
  | none => true
  | some l => decide (l.points.length ≤ x.done)

/-! ### Pins and RETIRING slots (R121, R127) -/

/-- The RETIRING slots that become FREE when the pins go. The table ascends in slot number, and their final DONE replies are
handed in that order, a DESIGN CHOICE (log 29): R127 gives no order among them. -/
def Clr.retired (c : Clr) : List TileSlot :=
  c.slots.filter (fun t => decide (t.state = .retiring) && decide (0 < t.pins))

/-- The final DONE of a TILE RETIRE whose slot has become FREE (R127). -/
def State.retireDone (s : State) (t : TileSlot) : State :=
  match t.owner with
  | none => s
  | some o => s.finish o.port o.tag .done

/-- The pass or step is over: every slot it pinned returns to pin count 0, and a RETIRING one becomes FREE. -/
def State.releasePins (s : State) : State :=
  let freed := s.clr.retired
  let s1 := { s with clr := { s.clr with
    slots := (s.clr.slots.filter (fun t => !(decide (t.state = .retiring) && decide (0 < t.pins)))).map
      (fun t => { t with pins := 0 }) } }
  freed.foldl State.retireDone s1

/-- The running pass or step is cut: nothing more is written, the pins go and the request is withdrawn (R144). -/
def State.cutPass (s : State) : State :=
  match s.clr.pass with
  | none => s
  | some _ => ({ s with clr := { s.clr with pass := none } }.releasePins).withdraw .clr

/-- CLR takes RNG's reclaim notice for line `n` (R87, R138, R144). -/
def State.clrReclaim (s : State) (n : Nat) : State :=
  let s1 := { s with clr := { s.clr with pendingList := s.clr.pendingList.filter (fun l => decide (l ≠ n)) } }
  match s.clr.pass with
  | none => s1
  | some x => if x.kind.isStep && decide (x.line = n) then s1.cutPass else s1

/-! ### The colour queue (R135) -/

def colourQueueCapacity : Nat := 16

/-- CLR takes a line handed at its close notice: Queued (true) or Refused. -/
def Clr.takeLine (c : Clr) (n : Nat) : Clr × Bool :=
  if c.colourQueue.length < colourQueueCapacity then ({ c with colourQueue := c.colourQueue ++ [n] }, true)
  else ({ c with counters := { c.counters with colourSkippedLines := bump c.counters.colourSkippedLines 1 } }, false)

/-! ### Back-fill work (R139 to R141) -/

def backfillCapacity : Nat := 64

/-- The back-fill task for an ended exposure is queued, or the sweep mark is set when the queue is full (R140). -/
def Clr.queueBackfill (c : Clr) (e : Nat) : Clr :=
  if c.backfillQueue.length < backfillCapacity then { c with backfillQueue := c.backfillQueue ++ [e] }
  else { c with
    sweepMark := true
    counters := { c.counters with backfillOverflows := bump c.counters.backfillOverflows 1 } }

/-- The next line of the work: the oldest line of the pending-line list above the position and not above the end line
(R141). -/
def Work.next (w : Work) (pendingList : List Nat) : Option Nat :=
  match w.endLine with
  | none => none
  | some e =>
    pendingList.find? (fun n => ((w.position.map (fun p => decide (p < n))).getD true) && decide (n ≤ e))

/-- The work is over: its end line is absent, or its position has reached it (R139). -/
def Work.over (w : Work) : Bool :=
  match w.endLine with
  | none => true
  | some e => (w.position.map (fun p => decide (e ≤ p))).getD false

/-- Work that is over ends at once, without a step (R139). -/
def Clr.endWork (c : Clr) : Clr :=
  match c.work with
  | none => c
  | some w => if w.over then { c with work := none } else c

def WorkKind.pass : WorkKind → PassKind
  | .task e => .task e
  | .sweep => .sweep

/-- New work is taken up: the sweep, which covers every queued task, or the oldest task (R139). -/
def Clr.takeUp (c : Clr) : Option Clr :=
  let w (k : WorkKind) : Option Work := some ⟨k, c.pendingList.getLast?, none⟩
  if c.sweepMark then some { c with work := w .sweep, sweepMark := false, backfillQueue := [] }
  else
    match c.backfillQueue with
    | [] => none
    | e :: rest => some { c with work := w (.task e), backfillQueue := rest }

/-- The free engine chooses (R136): the first pass of the oldest line in the colour queue, else the next back-fill step,
taking up and ending work as R139 and R141 say. Each round but the last ends or takes up one piece of work. -/
def Clr.chooseIn : Nat → Clr → Clr
  | 0, c => c
  | n + 1, c =>
    match c.colourQueue with
    | line :: _ => { c with pass := some ⟨line, .firstPass, 0, 0⟩ }
    | [] =>
      match c.work with
      | some w =>
        match w.next c.pendingList with
        | some line =>
          { c with work := some { w with position := some line }, pass := some ⟨line, w.kind.pass, 0, 0⟩ }
        | none => Clr.chooseIn n { c with work := none }
      | none =>
        match c.takeUp with
        | none => c
        | some c' => Clr.chooseIn n c'.endWork

/-- The free engine ends work that is over and chooses; the rounds suffice, since each queued task is taken up and ended
once, and so are the work in hand and the sweep. A running pass goes on. -/
def Clr.choose (c : Clr) : Clr :=
  match c.pass with
  | some _ => c
  | none => c.endWork.chooseIn (2 * c.backfillQueue.length + 5)

def State.chooseWork (s : State) : State := { s with clr := s.clr.choose }

/-! ### A change of ring size and RESTART (R144) -/

/-- CLR takes RNG's discard notice (R144): every line leaves the colour queue and the pending-line list, and a pass or
step running on a line is cut. -/
def State.clrDiscard (s : State) : State :=
  { s with clr := { s.clr with colourQueue := [], pendingList := [] } }.cutPass

/-- CLR's part of RESTART. The bytes of the tile area stay in DRAM; no slot gives them out. -/
def Clr.restart (c : Clr) : Clr := { clrPowerOn with tileArea := c.tileArea }

end Sys2Proof.Machine
end

