-- ==== Sys2Proof/Machine/Ring.lean ====
section
/-! DEFINITION. RNG, chapter 5: admission, reclaim, abandonment, close notices, commit, emptying the ring, the ring
writer and the DRAM arbiter, and the ends of transfers and passes. -/

namespace Sys2Proof.Machine

/-! ### Occupancy and ring size (R79, R82) -/

/-- The ring size in bytes (R79). -/
def ringBytes (q : ScanParams) : Nat := q.ringSize * 67108864

/-- The bytes the ring's open line holds: its 48 reserved header bytes and the point records written for it. -/
def RingOpen.size (o : RingOpen) : Nat := headerSize + pointsSize o.points

def committedSize (r : Rng) : Nat := (r.committed.map RingLine.size).sum
def closedSize (r : Rng) : Nat := (r.closed.map (fun l => l.line.size)).sum
def openSize (r : Rng) : Nat := (r.openLine.map RingOpen.size).getD 0

/-- The occupancy (R82). -/
def Rng.occupancy (r : Rng) : Nat := committedSize r + closedSize r + openSize r

/-! ### Reclaim (R85 to R87) -/

/-- Every open essential stream has released line `n` (R86). -/
def State.reclaimable (s : State) (n : Nat) : Bool :=
  s.str.toList.all (fun st => !(st.isOpen && st.essential) || decide (n ≤ st.releasePoint))

/-- The oldest committed line leaves the ring and its reclaim notices are handed to STR and CLR (R85, R87). READY follows
an advance that gives a stream a deliverable line (R154). STR takes the notice first, so on one port the CHECK GONE of a cut
delivery goes before the DONE of a TILE RETIRE that the cut step frees, a DESIGN CHOICE (log 31): the rules give no order. -/
def State.reclaimHead (s : State) (l : RingLine) : State :=
  let s1 := { s with rng := { s.rng with committed := s.rng.committed.tail } }
  State.raiseReady s ((s1.strReclaim l.number).clrReclaim l.number)

/-- Reclaim until the bytes fit or reclaim stops (R84, R85); the first argument bounds the lines reclaimed. -/
def State.reclaimFor (bytes : Nat) : Nat → State → State
  | 0, s => s
  | k + 1, s =>
    if s.rng.occupancy + bytes ≤ ringBytes s.scn.params then s
    else
      match s.rng.committed with
      | [] => s
      | l :: _ => if s.reclaimable l.number then State.reclaimFor bytes k (s.reclaimHead l) else s

/-- Admission of `bytes` bytes (R84): the state after any reclaim, and whether the bytes are admitted. -/
def State.admitBytes (s : State) (bytes : Nat) : State × Bool :=
  let s1 := State.reclaimFor bytes s.rng.committed.length s
  (s1, decide (s1.rng.occupancy + bytes ≤ ringBytes s1.scn.params))

/-! ### Abandonment (R88, R89) -/

/-- The line `n` is abandoned; `lostPoints` counts its written points and the point being admitted. -/
def State.abandon (s : State) (n lostPoints : Nat) : State :=
  let s1 := { s with
    rng := { s.rng with
      openLine := none
      discarding := some ⟨n, .abandoned⟩
      lostCount := bump s.rng.lostCount 1
      lostBoundary := some n
      counters := { s.rng.counters with
        linesLost := bump s.rng.counters.linesLost 1
        abandonedPoints := bump s.rng.counters.abandonedPoints lostPoints } }
    lnb := { s.lnb with reports := s.lnb.reports ++ [n] } }
  s1.raiseAll evLost

/-! ### Commit (R89, R91, R92) -/

/-- The lost-before count of line `n`: the lost count, for the first line above the lost boundary (R89). -/
def Rng.lostBeforeOf (r : Rng) (n : Nat) : Nat :=
  if 0 < r.lostCount ∧ (r.lostBoundary.map (fun b => decide (b < n))).getD false = true then r.lostCount else 0

/-- RNG's part of the commit of the head of the closed-line list. -/
def Rng.commitLine (r : Rng) (l : RingLine) : Rng :=
  let lost := r.lostBeforeOf l.number
  let taken := decide (0 < r.lostCount) && (r.lostBoundary.map (fun b => decide (b < l.number))).getD false
  { r with
    committed := r.committed ++ [{ l with header := { l.header with lostBefore := lost } }]
    closed := r.closed.tail
    lostCount := if taken then 0 else r.lostCount
    lostBoundary := if taken then none else r.lostBoundary }

/-- A PENDING line joins the pending-line list at its commit (R138). -/
def Clr.joinPending (c : Clr) (l : RingLine) : Clr :=
  match l.header.colour with
  | .settled => c
  | .pending => { c with pendingList := c.pendingList ++ [l.number] }

/-- The head of the closed-line list commits (R92). -/
def State.commitHead (s : State) (l : RingLine) : State :=
  let s1 := State.raiseReady s { s with rng := s.rng.commitLine l, clr := s.clr.joinPending l }
  if l.header.flags.quality then s1.raiseAll evQuality else s1

def ClosedState.ready : ClosedState → Bool
  | .colouring => false
  | .coloured => true
  | .skipped => true

/-- Lines commit from the head while the head is ready (R92); the first argument bounds the commits. -/
def State.commitReadyIn : Nat → State → State
  | 0, s => s
  | k + 1, s =>
    match s.rng.closed with
    | [] => s
    | l :: _ => if l.state.ready then State.commitReadyIn k (s.commitHead l.line) else s

def State.commitReady (s : State) : State := State.commitReadyIn s.rng.closed.length s

/-! ### The ring writer's items (R83, R90) -/

def closedCapacity : Nat := 32

/-- A close notice joins the closed-line list and is handed to CLR (R90, R91, R135). -/
def State.closeNotice (s : State) (h : LineHeader) (o : RingOpen) : State :=
  let (c, queued) := s.clr.takeLine h.lineNumber
  let copy := if queued then h else { h with flags := { h.flags with colourSkipped := true } }
  let entry : ClosedLine := ⟨⟨copy, h, o.points⟩, if queued then .colouring else .skipped⟩
  State.commitReady { s with
    clr := c
    rng := { s.rng with openLine := none, closed := s.rng.closed ++ [entry] } }

/-- A point as the ring writer writes it: ABSENT, with colour and colour exposure 0 (R83, R118). -/
def Point.asWritten (p : Point) : Point := { p with colourState := .absent, colour := ⟨0, 0, 0⟩, colourTag := 0 }

/-- An item of the discarding line is discarded (R83). -/
def State.discardItem (s : State) (d : Discarding) (x : FifoItem) : State :=
  match x with
  | .openNotice _ => s
  | .closeNotice _ _ => { s with rng := { s.rng with discarding := none } }
  | .point _ _ =>
    match d.cause with
    | .resized => s
    | .abandoned => { s with rng := { s.rng with counters :=
        { s.rng.counters with abandonedPoints := bump s.rng.counters.abandonedPoints 1 } } }

/-- An open notice: its 48 header bytes are admitted, or the line is abandoned as it opens (R83, R88). -/
def State.openItem (s : State) (n : Nat) : State :=
  let s1 := { s with rng := { s.rng with discarding := none } }
  let (s2, fits) := s1.admitBytes headerSize
  if fits then { s2 with rng := { s2.rng with openLine := some ⟨n, []⟩ } } else s2.abandon n 0

/-- A point: its bytes are admitted and its record written, or the line is abandoned and the point with it (R83, R88). A
point always finds its line open (R69). -/
def State.pointItem (s : State) (n : Nat) (p : Point) : State :=
  match s.rng.openLine with
  | none => s
  | some o =>
    let (s1, fits) := s.admitBytes p.size
    if fits then { s1 with rng := { s1.rng with openLine := some { o with points := o.points ++ [p.asWritten] } } }
    else s1.abandon n (o.points.length + 1)

/-- A close notice that the ring writer can take (R90). A close notice always finds its line open (R69). -/
def State.closeItem (s : State) (h : LineHeader) : State :=
  match s.rng.openLine with
  | none => s
  | some o => s.closeNotice h o

/-- The item carries the number of the discarding line. -/
def Rng.discards (r : Rng) (x : FifoItem) : Option Discarding :=
  match r.discarding with
  | none => none
  | some d => if d.number = x.line then some d else none

/-- The ring writer takes the oldest item of the FIFO and deals with it whole (R83). -/
def State.writeItem (s : State) : State :=
  match s.lnb.fifo with
  | [] => s
  | x :: rest =>
    let s0 := s.withFifo rest
    let s1 := { s0 with rng := { s0.rng with stallCounted := false } }
    match s1.rng.discards x with
    | some d => s1.discardItem d x
    | none =>
      match x with
      | .openNotice n => s1.openItem n
      | .point n p => s1.pointItem n p
      | .closeNotice _ h => s1.closeItem h

/-! ### The ring writer's stall (R90) -/

/-- The ring writer is stalled: a close notice, not of the discarding line, heads the FIFO and the closed-line list is
full. -/
def State.writerStalled (s : State) : Bool :=
  match s.lnb.fifo with
  | x :: _ =>
    match x with
    | .closeNotice _ _ => (s.rng.discards x).isNone && decide (closedCapacity ≤ s.rng.closed.length)
    | .openNotice _ => false
    | .point _ _ => false
  | [] => false

/-- CLOSE WAITS counts each notice at which the ring writer stalls once (R90). -/
def State.countStall (s : State) : State :=
  if s.writerStalled && !s.rng.stallCounted then
    { s with rng := { s.rng with
      stallCounted := true
      counters := { s.rng.counters with closeWaits := bump s.rng.counters.closeWaits 1 } } }
  else s

/-! ### Requests and grants (R94 to R96) -/

def State.writerRequests (s : State) : Bool := !s.lnb.fifo.isEmpty && !s.writerStalled

/-- CLR requests while a pass or step runs; a step on a line that a reader holds makes no read or write (R150). -/
def State.clrRequests (s : State) : Bool :=
  match s.clr.pass with
  | none => false
  | some x => !(x.kind.isStep && s.lineHeld x.line)

/-- A stream reader requests while it holds a line with bytes left to read and the link has taken the frames it handed
(R146, R172, log 10). -/
def State.readerRequests (s : State) (p : PortId) : Bool :=
  match (s.stream p).read with
  | some ⟨tag, _, .delivering n true sent⟩ =>
    match s.rng.lookup n with
    | none => false
    | some l => decide (sent < l.size) && (s.port p).paced tag
  | _ => false

def State.requests (s : State) : RoundRobin → Bool
  | .clr => s.clrRequests
  | .tileLoader => !s.clr.loader.isEmpty
  | .reader p => s.readerRequests p

/-- The cycle of the round-robin requesters, from the one after `last` (R95). -/
def cycleAfter (last : RoundRobin) : List RoundRobin :=
  let cycle : List RoundRobin := [.clr, .tileLoader, .reader 0, .reader 1, .reader 2, .reader 3]
  let k := cycle.idxOf last + 1
  cycle.drop k ++ cycle.take k

/-- The round-robin winner (R95). -/
def State.winner (s : State) : Option RoundRobin := (cycleAfter s.rng.lastRR).find? s.requests

def State.startTransfer (s : State) (o : TransferOwner) : State :=
  { s with rng := { s.rng with inProgress := some ⟨o, true⟩ } }

/-- The largest run of ring writer grants in NORMAL while another requester waits (R95). -/
def runLimit : Nat := 4

/-- The ring writer is granted and deals with an item. The run counts grants made while a round-robin requester waited
(log 8). -/
def State.grantWriter (s : State) (waiting : Bool) : State :=
  let run := match s.rng.mode with
    | .holdOff => s.rng.run
    | .normal => if waiting then s.rng.run + 1 else 0
  ({ s with rng := { s.rng with run := run } }.startTransfer .ringWriter).writeItem

/-- A round-robin requester is granted (R95). -/
def State.grantRR (s : State) (x : RoundRobin) : State :=
  let owner : TransferOwner := match x with
    | .clr => .clr
    | .tileLoader => .tileLoader ((s.clr.loader.head?.map LoadChunk.slot).getD 0)
    | .reader p => .reader p
  { s with rng := { s.rng with lastRR := x, run := 0 } }.startTransfer owner

/-- With the DRAM idle the arbiter grants one of the requests waiting (R94 to R96). -/
def State.grant (s : State) : State :=
  match s.rng.inProgress with
  | some _ => s
  | none =>
    let w := s.winner
    let writerFirst := match s.rng.mode with
      | .holdOff => true
      | .normal => decide (s.rng.run < runLimit) || w.isNone
    if s.writerRequests && writerFirst then s.grantWriter w.isSome
    else
      match w with
      | none => s
      | some x => s.grantRR x

/-- The end of a step: readers that may begin do, the free colour engine chooses, a stall is counted, the idle DRAM is
granted, and what the grant brought about is followed up in the same way. -/
def State.settle (s : State) : State :=
  let s1 := s.beginReads.chooseWork.countStall
  s1.grant.beginReads.chooseWork.countStall

/-! ### Ends of passes (R137, R142, R143) -/

/-- The header as a first pass writes it (R137). -/
def LineHeader.firstPass (h : LineHeader) (made : Nat) : LineHeader :=
  { h with colour := if made = 0 then .settled else .pending, pendingCount := made }

/-- The header as a back-fill step writes it (R142, step 2). -/
def LineHeader.stepped (h : LineHeader) (left : Nat) : LineHeader :=
  { h with colour := if h.pendingCount - left = 0 then .settled else .pending, pendingCount := h.pendingCount - left }

/-- CLR writes the header in DRAM and RNG's copy in the same step (R119). -/
def RingLine.writeHeader (f : LineHeader → LineHeader) (l : RingLine) : RingLine :=
  { l with header := f l.header, dramHeader := { l.dramHeader with
      colour := (f l.header).colour
      pendingCount := (f l.header).pendingCount } }

/-- The first pass of a line ends (R137): header written, line out of the colour queue, pins released, and the end
reported to RNG, which commits (R91, R92). The DONE of a freed TILE RETIRE goes before what a reader then sends (log 31). -/
def State.endFirstPass (s : State) (x : Pass) : State :=
  let s1 := { s with
    rng := s.rng.mapClosed x.line
      (fun l => ⟨l.line.writeHeader (fun h => h.firstPass x.tally), .coloured⟩)
    clr := { s.clr with pass := none, colourQueue := s.clr.colourQueue.erase x.line } }
  s1.releasePins.commitReady

/-- A back-fill step ends (R142, R143): a line that became SETTLED leaves the pending-line list, and the change notice
goes to STR when a point left PENDING. -/
def State.endStep (s : State) (x : Pass) : State :=
  let done : Bool := match s.rng.lookup x.line with
    | none => false
    | some l => decide ((l.header.stepped x.tally).colour = .settled)
  let s1 := { s with
    rng := if x.tally = 0 then s.rng
      else s.rng.mapCommitted x.line (RingLine.writeHeader (fun h => h.stepped x.tally))
    clr := { s.clr with
      pass := none
      pendingList := if done then s.clr.pendingList.filter (fun n => decide (n ≠ x.line)) else s.clr.pendingList } }
  let s2 := s1.releasePins
  if x.tally = 0 then s2 else State.raiseReady s (s2.changeNotice x.line)

def State.endPass (s : State) (x : Pass) : State :=
  match x.kind with
  | .firstPass => s.endFirstPass x
  | .task _ => s.endStep x
  | .sweep => s.endStep x

/-! ### The tile loader (R124) -/

/-- The most bytes one transfer of a requester other than the ring writer carries (R94). -/
def transferSize : Nat := 1024

def TileSlot.cellBytes (t : TileSlot) : Nat := t.w * t.h * 3

/-- The load of slot `k` is complete (R124): VALID, TILED, indexed, its back-fill queued, DONE. -/
def State.completeLoad (s : State) (k : Nat) : State :=
  match s.clr.slot k with
  | none => s
  | some t =>
    let c1 := s.clr.mapSlot k (fun t => { t with state := .valid, owner := none })
    let c2 := (c1.insertInIndex { t with state := .valid, owner := none }).queueBackfill t.exposure
    let s1 := { s with
      clr := c2
      exs := { s.exs with log := s.exs.log.map (fun e =>
        if e.id = t.exposure then { e with state := .tiled, deadline := none, held := none } else e) } }
    match t.owner with
    | none => s1
    | some o => s1.finish o.port o.tag .done

/-- The tile loader's transfer for slot `k` ends: it has written `work` bytes (from 1 to all of the chunk, 1,024
at most), and the load is complete when they were the last (R124). -/
def State.endLoaderTransfer (s : State) (k work : Nat) : State :=
  match s.clr.loader with
  | [] => s
  | chunk :: rest =>
    match s.clr.slot k with
    | none => s
    | some t =>
      let n := max 1 (min (min work transferSize) chunk.bytes.length)
      let left := chunk.bytes.drop n
      let s1 := { s with clr := { s.clr.mapSlot k (fun t => { t with written := t.written + n }) with
        tileArea := Memory.writeList s.clr.tileArea (k * slotBytes + t.written) (chunk.bytes.take n)
        loader := if left.isEmpty then rest else { chunk with bytes := left } :: rest } }
      if t.written + n = t.cellBytes then s1.completeLoad k else s1

/-! ### The stream readers -/

/-- The transfer of the reader of port `p` ends: it has read `work` bytes (from 1 to all that are left, 1,024 at most)
and hands them in one DATA-IN frame (R150, logs 5 and 9). -/
def State.endReaderTransfer (s : State) (p : PortId) (work : Nat) : State :=
  match (s.stream p).read with
  | some ⟨tag, remaining, .delivering n true sent⟩ =>
    match s.rng.lookup n with
    | none => s
    | some l =>
      let k := max 1 (min work transferSize)
      let payload := (l.bytes.drop sent).take k
      (s.setRead p (some ⟨tag, remaining, .delivering n true (sent + payload.length)⟩)).modPort p
        (Port.hand ⟨tag, .dataIn payload, false⟩)
  | _ => s

/-! ### The end of a transfer (R94) -/

/-- The bytes a pass moves for one point record (R94, R137, R142): the record read and, where the pass evaluates the point,
the 3 bytes of the cell it takes and the record written back. -/
def State.recordTraffic (s : State) (x : Pass) (p : Point) : Nat :=
  if x.kind.evaluates p then
    match (evaluate s.scn.params s.clr s.exs p).2 with
    | none => p.size + p.size
    | some _ => p.size + 3 + p.size
  else p.size

/-- The number of leading point records whose bytes, as `traffic` counts them, fit in `room`. -/
def pointsFitting (traffic : Point → Nat) : Nat → List Point → Nat
  | _, [] => 0
  | room, p :: ps => if traffic p ≤ room then pointsFitting traffic (room - traffic p) ps + 1 else 0

/-- The point records of the line that a pass has still to deal with. -/
def State.pointsLeft (s : State) (x : Pass) : List Point :=
  ((s.passLine x).map (fun l => l.points.drop x.done)).getD []

/-- CLR's transfer ends: point records were dealt with, as many as `work` says and 1,024 bytes carry (log 5), or the header
was written and the pass or step ends. The 1,024 bytes hold all that the transfer reads and writes. That a record is read, its
cell read and the record written back in one transfer is a DESIGN CHOICE (log 32): R94 leaves the division to CLR. So is that
a step with nothing to write, whose header stays too, ends at one further transfer as any other does (log 35): R142 says only
that such a step writes nothing. -/
def State.endClrTransfer (s : State) (work : Nat) : State :=
  match s.clr.pass with
  | none => s
  | some x =>
    if s.passAtEnd x then s.endPass x
    else State.colourPoints (min work (pointsFitting (s.recordTraffic x) transferSize (s.pointsLeft x))) s

/-- What the owner of an ended transfer does with it. A ring writer's item was dealt with at its grant (R83). -/
def State.endTransferOf (s : State) (o : TransferOwner) (work : Nat) : State :=
  match o with
  | .ringWriter => s
  | .clr => s.endClrTransfer work
  | .tileLoader k => s.endLoaderTransfer k work
  | .reader p => s.endReaderTransfer p work

/-- The transfer in progress ends (R94); its result is discarded when its work has ended meanwhile (R97). With no
transfer in progress nothing ends. -/
def State.endTransfer (s : State) (work : Nat) : State :=
  match s.rng.inProgress with
  | none => s
  | some t =>
    let s1 := { s with rng := { s.rng with inProgress := none } }
    (if t.wanted then s1.endTransferOf t.owner work else s1).settle

/-! ### Emptying the ring (R93) -/

/-- RNG's part of a change of ring size: the open line, if any, becomes the discarding line. -/
def Rng.emptied (r : Rng) : Rng :=
  { r with
    committed := []
    closed := []
    openLine := none
    discarding := match r.openLine with
      | some o => some ⟨o.number, .resized⟩
      | none => r.discarding
    lostCount := 0
    lostBoundary := none }

/-- A change of ring size: the ring is emptied, CLR discards its lines, every stream is closed (R46, R93, R144). CLR takes its
discard notice first, so on one port the DONE of a TILE RETIRE that the cut frees goes before the CHECK ABORTED of a LINES
READ, a DESIGN CHOICE (log 31): the rules give no order. -/
def State.resizeRing (s : State) : State :=
  ({ s with rng := s.rng.emptied }.clrDiscard).closeStreams

/-- RNG's part of RESTART: its power-on state (R81), the transfer in progress discarded (R97). The ring size is a scan
parameter and stays. -/
def rngRestart : Rng := rngPowerOn

end Sys2Proof.Machine
end

