-- ==== Sys2Proof/Machine/Exposure.lean ====
section
/-! DEFINITION. EXS, chapter 6: trigger causes, stations and the periodic counter, the strobe, the expected window, the
tile deadline, and the changes CLR asks of a record (R113). -/

namespace Sys2Proof.Machine

def logCapacity : Nat := 64

def ExposureState.isTerminal : ExposureState → Bool
  | .tiled => true
  | .expired => true
  | .dropped => true
  | .missed => true
  | .triggered => false
  | .exposed => false
  | .loading => false

/-- The one record in TRIGGERED, if there is one (R106). -/
def Exs.triggered (x : Exs) : Option Exposure := x.log.find? (fun e => decide (e.state = .triggered))

def Exs.exposure (x : Exs) (id : Nat) : Option Exposure := x.log.find? (fun e => decide (e.id = id))

def Exs.mapLog (x : Exs) (id : Nat) (f : Exposure → Exposure) : Exs :=
  { x with log := x.log.map (fun e => if e.id = id then f e else e) }

/-! ### Firing (R106) -/

/-- Room for a new record: in a full log the oldest terminal record is removed (R104). -/
def makeRoom (log : List Exposure) : List Exposure :=
  if log.length < logCapacity then log else log.eraseP (fun e => e.state.isTerminal)

/-- The cause is skipped: tests 1 to 3 of R106. -/
def Exs.mustSkip (x : Exs) : Bool :=
  decide (x.idCounter = maxCount) || x.triggered.isSome
    || (decide (logCapacity ≤ x.log.length) && x.log.all (fun e => !e.state.isTerminal))

/-- The record a trigger makes (R106). -/
def freshExposure (id : Nat) (now : Time) (setup : CameraSetup) : Exposure where
  id := id
  triggerTime := now
  start := none
  endTime := none
  mid := none
  azMid := none
  window := none
  state := .triggered
  slot := none
  strobe := some ⟨now, usToFt setup.strobeTimeoutUs⟩
  deadline := none
  held := none

/-- The camera is fired: TRIGGER is pulsed and the new record appended (R106). -/
def Exs.fire (x : Exs) (now : Time) : Exs :=
  { x with
    idCounter := x.idCounter + 1
    triggerPulses := x.triggerPulses + 1
    log := makeRoom x.log ++ [freshExposure (x.idCounter + 1) now x.setup] }

def Exs.countSkip (x : Exs) : Exs :=
  { x with counters := { x.counters with skippedTriggers := bump x.counters.skippedTriggers 1 } }

/-- A trigger cause fires the camera or is skipped (R106). -/
def State.triggerCause (s : State) : State :=
  if s.exs.mustSkip then { s with exs := s.exs.countSkip }.raiseAll evNoExposure
  else { s with exs := s.exs.fire s.tb }

/-! ### Stations and the periodic counter (R107, R108) -/

/-- The azimuth travel in au. -/
def Ang.travelAu (g : Ang) : Int := g.travel.toInt * 256

/-- The stations from the next one on are compared with the travel until one lies beyond it (R107). -/
def State.reachStations : List Nat → State → State
  | [], s => s
  | v :: rest, s =>
    if (v : Int) ≤ s.ang.travelAu then
      State.reachStations rest
        { s with exs := { s.exs with nextStation := s.exs.nextStation + 1 } }.triggerCause
    else s

def State.compareStations (s : State) : State := State.reachStations (s.exs.stations.drop s.exs.nextStation) s

/-- The periodic counter at a travel change (R108). -/
def State.countPeriodic (s : State) (dir : Dir) : State :=
  match dir with
  | .forward =>
    if s.exs.periodic ≤ 1 then
      let s1 := { s with exs := { s.exs with periodic := 0 } }.triggerCause
      { s1 with exs := { s1.exs with periodic := s1.exs.setup.interval } }
    else { s with exs := { s.exs with periodic := s.exs.periodic - 1 } }
  | .backward =>
    { s with exs := { s.exs with periodic := min (s.exs.periodic + 1) (max s.exs.periodic s.exs.setup.interval) } }

/-- EXS takes a travel change (R107, R108); it fires only in RUNNING. -/
def State.exsTravel (s : State) (dir : Dir) : State :=
  match s.scn.state with
  | .running =>
    match s.exs.setup.mode with
    | .off => s
    | .stations =>
      match dir with
      | .forward => s.compareStations
      | .backward => s
    | .periodic => s.countPeriodic dir
  | .idle => s
  | .armed => s
  | .draining => s
  | .fault => s

/-- EXS at entry to RUNNING (R100, R107). -/
def State.exsEnterRunning (s : State) : State :=
  let s1 := { s with exs := { s.exs with nextStation := 0, periodic := s.exs.setup.interval } }
  match s1.exs.setup.mode with
  | .stations => s1.compareStations
  | .off => s1
  | .periodic => s1

/-! ### The strobe (R109 to R111) -/

def Exs.countSpontaneous (x : Exs) : Exs :=
  { x with counters := { x.counters with spontaneousStrobes := bump x.counters.spontaneousStrobes 1 } }

/-- A STROBE rise at the count as it stands (R109). -/
def State.strobeRise (s : State) : State :=
  match s.exs.triggered with
  | some e => { s with exs := s.exs.mapLog e.id (fun e => { e with start := some s.tb }) }
  | none => { s with exs := s.exs.countSpontaneous }

/-- ts + floor((te − ts) / 2), times modulo 2^64 (R110, R1). -/
def midTime (ts te : Time) : Time := ts + BitVec.ofNat 64 ((te - ts).toNat / 2)

/-- The expected window (R110, step 4). -/
def expectedWindow (q : CameraSetup) (azMid : Angle) : AngularWindow where
  azStart := angleOfInt ((azMid.toNat : Int) + q.azOffset - q.halfWidth)
  azWidth := 2 * q.halfWidth
  mLow := BitVec.ofNat 24 q.mLow
  mHigh := BitVec.ofNat 24 q.mHigh

/-- The record of a completed exposure (R110). -/
def Exposure.complete (e : Exposure) (q : CameraSetup) (ts te : Time) (azMid : Angle) : Exposure :=
  { e with
    endTime := some te
    mid := some (midTime ts te)
    azMid := some azMid
    window := some (expectedWindow q azMid)
    state := .exposed
    strobe := none
    deadline := some ⟨te, sToFt q.tileDeadlineS⟩ }

/-- A STROBE fall at the count as it stands (R109). -/
def State.strobeFall (s : State) : State :=
  match s.exs.triggered with
  | none => s
  | some e =>
    match e.start with
    | none => { s with exs := s.exs.countSpontaneous }
    | some ts =>
      let azMid := s.ang.azimuthQuery (midTime ts s.tb)
      { s with exs := s.exs.mapLog e.id (fun e => e.complete s.exs.setup ts s.tb azMid) }.raiseAll evExposed

/-- The strobe timeout of the TRIGGERED record expires (R111). -/
def State.strobeTimeout (s : State) : State :=
  match s.exs.triggered with
  | none => s
  | some e =>
    if timerDue e.strobe s.tb then
      let x := s.exs.mapLog e.id (fun e => { e with state := .missed, strobe := none })
      { s with exs := { x with counters :=
        { x.counters with missedExposures := bump x.counters.missedExposures 1 } } }.raiseAll evNoExposure
    else s

/-! ### The tile deadline (R112, R115) -/

/-- CLR takes EXS's end notice for an exposure (R140). -/
def State.endNotice (s : State) (id : Nat) : State := { s with clr := s.clr.queueBackfill id }

/-- The tile deadline of an EXPOSED record expires (R112). -/
def State.tileDeadline (s : State) (id : Nat) : State :=
  match s.exs.exposure id with
  | none => s
  | some e =>
    if decide (e.state = .exposed) && timerDue e.deadline s.tb then
      let x := s.exs.mapLog id (fun e => { e with state := .expired, deadline := none, held := none })
      ({ s with exs := { x with counters :=
        { x.counters with expiredExposures := bump x.counters.expiredExposures 1 } } }.raiseAll evExpired).endNotice id
    else s

/-! ### What CLR asks of a record (R113) -/

/-- Acceptance: LOADING with the slot, the deadline suspended with its remaining time held. -/
def Exposure.load (e : Exposure) (slot : Nat) (now : Time) : Exposure :=
  { e with
    state := .loading
    slot := some slot
    held := e.deadline.map (fun t => t.remaining now)
    deadline := none }

/-- Load abort: back to EXPOSED, the deadline started again with the held time. -/
def Exposure.unload (e : Exposure) (now : Time) : Exposure :=
  { e with
    state := .exposed
    slot := none
    deadline := e.held.map (fun n => ⟨now, n⟩)
    held := none }

/-- EXS's part of RESTART (R100). -/
def Exs.restart (x : Exs) : Exs :=
  { x with nextStation := 0, periodic := x.setup.interval, log := [], counters := zeroExsCounters }

end Sys2Proof.Machine
end

