-- ==== Sys2Proof/Machine/Ranging.lean ====
section
/-! DEFINITION. ECA, chapter 2: the pulse history, taking EMIT and ECHO records, closing pulses and forming points. -/

namespace Sys2Proof.Machine

def pulseCapacity : Nat := 16
def echoCapacity : Nat := 4
def maxDelay : Nat := 268435455
def maxRange : Nat := 16777215

def PulseRec.isOpen (r : PulseRec) : Bool := decide (r.state = .isOpen)

/-- The distance of `q` below `p`: (p − q) mod 2^16 (R23). -/
def idDistance (p q : BitVec 16) : Nat := (p - q).toNat

/-! ### Closing a pulse (R36, R37) -/

/-- The point ECA forms (R36). MASK TAG is clear; the colour is given later. -/
def formPoint (r : PulseRec) (x : MirrorAnswer) (a : Angle) : Point where
  m := x.m
  a := a
  echoes := r.echoes
  flags := ⟨x.extrapolated, x.stale, x.suspect, r.overflow, decide (r.echoes.length = 0), false⟩
  colourState := .absent
  colour := ⟨0, 0, 0⟩
  colourTag := 0

/-- A pulse closes: its angles are queried at its emission time, its point is formed and treated by the no-return
policy (R36, R37). -/
def State.closePulse (s : State) (r : PulseRec) : State :=
  let x := s.ang.mirrorQuery s.scn.params.mirrorZero r.time
  let p := formPoint r x (s.ang.azimuthQuery r.time)
  let s1 := { s with ang := s.ang.countAnswer x }
  if p.flags.noReturn && decide (s.scn.params.noReturnPolicy = .drop) then
    { s1 with eca := { s1.eca with counters :=
      { s1.eca.counters with noReturnDrops := bump s1.eca.counters.noReturnDrops 1 } } }
  else s1.takePoint ⟨p, x.revolution, r.time, r.quality⟩

/-- The record once closed; its echo list stays until it leaves (R36). -/
def PulseRec.close (r : PulseRec) : PulseRec := { r with state := .isClosed }

/-- Every OPEN record that `sel` selects closes, in history order. -/
def State.closePulses (s : State) (sel : PulseRec → Bool) : State :=
  let s1 := (s.eca.history.filter (fun r => r.isOpen && sel r)).foldl State.closePulse s
  { s1 with eca := { s1.eca with
    history := s1.eca.history.map (fun r => if r.isOpen && sel r then r.close else r) } }

/-- The history emptied and the previous EMIT cleared (R38, R1). -/
def State.emptyHistory (s : State) : State := { s with eca := { s.eca with history := [], prevEmit := none } }

/-- The drain expiry at ECA (R38): open pulses close, the history empties, the drain mark goes to LNB. -/
def State.drainPulses (s : State) : State := ((s.closePulses (fun _ => true)).emptyHistory).drainMark

/-- ECA's part of entry to FAULT (R39). -/
def Eca.discardPulses (e : Eca) : Eca :=
  { e with
    history := []
    prevEmit := none
    counters := { e.counters with
      pulsesDiscarded := bump e.counters.pulsesDiscarded (e.history.countP PulseRec.isOpen) } }

/-- ECA's part of RESTART (R39, R40, R21). -/
def Eca.restart (e : Eca) : Eca :=
  { e with history := [], prevEmit := none, lastFault := none, counters := zeroEcaCounters }

/-! ### Taking an EMIT (R22, R25 to R27) -/

def Eca.countEmitFault (e : Eca) : Eca :=
  { e with counters := { e.counters with emitFaults := bump e.counters.emitFaults 1 } }

/-- The class of an EMIT by its step d (R26). -/
inductive EmitClass where
  | inSequence
  | gap (skipped : Nat)
  | repeated
  | idBreak
  deriving DecidableEq, Repr

def emitClass (prev : Option PrevEmit) (id : BitVec 16) : EmitClass :=
  match prev with
  | none => .inSequence
  | some q =>
    let d := idDistance id q.id
    if d = 0 then .repeated
    else if d = 1 then .inSequence
    else if d ≤ 32768 then .gap (d - 1)
    else .idBreak

/-- The time test fails: not later than the previous EMIT's time (R25). -/
def emitTooEarly (prev : Option PrevEmit) (t : Time) : Bool :=
  match prev with
  | none => false
  | some q => decide (t.toNat ≤ q.time.toNat)

/-- Step 1 of R27 closes this record: every OPEN one at an id break, else those farther below than the zone. -/
def closedBy (isBreak : Bool) (id : BitVec 16) (zone : Nat) (r : PulseRec) : Bool :=
  isBreak || decide (zone < idDistance id r.id)

/-- The records that stay after steps 1 and 2 of R27. -/
def keptBy (isBreak : Bool) (id : BitVec 16) (r : PulseRec) : Bool :=
  !isBreak && decide (idDistance id r.id < pulseCapacity)

/-- An EMIT is entered (R27). -/
def State.enterEmit (s : State) (isBreak : Bool) (id : BitVec 16) (t : Time) : State :=
  let s1 := s.closePulses (closedBy isBreak id s.scn.params.zone)
  { s1 with eca := { s1.eca with
    history := s1.eca.history.filter (keptBy isBreak id) ++ [⟨id, t, .isOpen, [], false, false⟩]
    prevEmit := some ⟨id, t⟩ } }

/-- An EMIT taken in RUNNING (R25, R26). -/
def State.testEmit (s : State) (id : BitVec 16) (t : Time) : State :=
  if emitTooEarly s.eca.prevEmit t then { s with eca := s.eca.countEmitFault }.raiseAll evRanging
  else
    match emitClass s.eca.prevEmit id with
    | .inSequence => s.enterEmit false id t
    | .gap n =>
      { s with eca := { s.eca with counters :=
        { s.eca.counters with pulseGaps := bump s.eca.counters.pulseGaps n } } }.enterEmit false id t
    | .repeated => { s with eca := s.eca.countEmitFault }.raiseAll evRanging
    | .idBreak =>
      ({ s with eca := { s.eca with counters :=
        { s.eca.counters with idBreaks := bump s.eca.counters.idBreaks 1 } } }.raiseAll evRanging).enterEmit true id t

/-- An EMIT record is taken (R22). -/
def State.takeEmit (s : State) (id : BitVec 16) (t : Time) : State :=
  match s.scn.state with
  | .running => s.testEmit id t
  | .idle => { s with eca := s.eca.countEmitFault }
  | .armed => { s with eca := s.eca.countEmitFault }
  | .draining => { s with eca := s.eca.countEmitFault }
  | .fault => { s with eca := s.eca.countEmitFault }

/-! ### Taking an ECHO (R22, R28 to R35) -/

/-- An ECHO record (2.1). -/
structure EchoRec where
  reference : BitVec 16
  delay : BitVec 28
  amplitude : BitVec 16
  width : BitVec 8
  saturated : Bool
  deriving DecidableEq, Repr

/-- The target's id (R28). -/
def targetId (reference : BitVec 16) (zone : Nat) : BitVec 16 := reference - BitVec.ofNat 16 zone

def findPulse (h : List PulseRec) (id : BitVec 16) : Option PulseRec := h.find? (fun r => decide (r.id = id))

/-- The total delay, clamped (R29). -/
def totalDelay (d : BitVec 28) (reference target : PulseRec) : Nat :=
  min (d.toNat + (reference.time - target.time).toNat) maxDelay

/-- The range of an echo with NEAR and FAR (R30). -/
def rangeOf (total offset scale : Nat) : Nat × Bool × Bool :=
  if total ≤ offset then (0, true, false)
  else
    let r := (2 * ((total - offset) * scale) + 1048576) / (2 * 1048576)
    if maxRange < r then (maxRange, false, true) else (r, false, false)

/-- What becomes of an echo (the table of 2.4). -/
inductive EchoOutcome where
  | orphan
  | outOfWindow
  | qualityDrop
  | orderFault (target : PulseRec)
  | overflow (target : PulseRec)
  | kept (target : PulseRec) (echo : Echo)
  deriving DecidableEq, Repr

/-- The tests on an echo whose target is known (R31 to R35). -/
def judgeTarget (q : ScanParams) (x : EchoRec) (reference target : PulseRec) : EchoOutcome :=
  let (r, near, far) := rangeOf (totalDelay x.delay reference target) q.rangeOffset q.rangeScale
  let weak := isWeak x.amplitude q.weakThreshold
  let poor := weak || x.saturated
  if r < q.nearLimit || q.farLimit < r then .outOfWindow
  else if poor && decide (q.qualityPolicy = .drop) then .qualityDrop
  else
    match target.echoes.getLast? with
    | some e =>
      if r ≤ e.range.toNat then .orderFault target
      else if echoCapacity ≤ target.echoes.length then .overflow target
      else .kept target ⟨BitVec.ofNat 24 r, x.amplitude, x.width, near, far, weak, x.saturated⟩
    | none => .kept target ⟨BitVec.ofNat 24 r, x.amplitude, x.width, near, far, weak, x.saturated⟩

/-- The steps of R28 to R35 in their order. -/
def judgeEcho (q : ScanParams) (h : List PulseRec) (x : EchoRec) : EchoOutcome :=
  match findPulse h x.reference, findPulse h (targetId x.reference q.zone) with
  | some reference, some target => if target.isOpen then judgeTarget q x reference target else .orphan
  | _, _ => .orphan

def Eca.mapPulse (e : Eca) (id : BitVec 16) (f : PulseRec → PulseRec) : Eca :=
  { e with history := e.history.map (fun r => if r.id = id then f r else r) }

def Eca.countOrphan (e : Eca) : Eca :=
  { e with counters := { e.counters with orphanEchoes := bump e.counters.orphanEchoes 1 } }

/-- The target with a kept echo; under REPORT a WEAK or SATURATED echo sets its quality mark (R32, R35). -/
def PulseRec.keep (r : PulseRec) (policy : QualityPolicy) (e : Echo) : PulseRec :=
  { r with
    echoes := r.echoes ++ [e]
    quality := r.quality || (decide (policy = .report) && (e.weak || e.saturated)) }

/-- An ECHO taken in RUNNING or DRAINING. -/
def State.processEcho (s : State) (x : EchoRec) : State :=
  let c := s.eca.counters
  match judgeEcho s.scn.params s.eca.history x with
  | .orphan => { s with eca := s.eca.countOrphan }
  | .outOfWindow => { s with eca := { s.eca with counters := { c with outOfWindowEchoes := bump c.outOfWindowEchoes 1 } } }
  | .qualityDrop => { s with eca := { s.eca with counters := { c with qualityDrops := bump c.qualityDrops 1 } } }
  | .orderFault _ =>
    { s with eca := { s.eca with counters := { c with orderFaults := bump c.orderFaults 1 } } }.raiseAll evRanging
  | .overflow t =>
    { s with eca := { s.eca.mapPulse t.id (fun r => { r with overflow := true }) with
      counters := { c with echoOverflows := bump c.echoOverflows 1 } } }
  | .kept t e => { s with eca := s.eca.mapPulse t.id (fun r => r.keep s.scn.params.qualityPolicy e) }

/-- An ECHO record is taken (R22). -/
def State.takeEcho (s : State) (x : EchoRec) : State :=
  match s.scn.state with
  | .running => s.processEcho x
  | .draining => s.processEcho x
  | .idle => { s with eca := s.eca.countOrphan }
  | .armed => { s with eca := s.eca.countOrphan }
  | .fault => { s with eca := s.eca.countOrphan }

end Sys2Proof.Machine
end

