-- ==== Sys2Proof/Machine/Timebase.lean ====
section
/-! DEFINITION. TB, chapter 1: the passing of time and the wrap of the timebase. -/

namespace Sys2Proof.Machine

/-- The wrap of the timebase (R1): ECA closes its open pulses and empties, then ANG empties both histories and clears
the previous index time. The count is set by the caller. -/
def State.wrapActions (s : State) : State :=
  let s1 := (s.closePulses (fun _ => true)).emptyHistory
  { s1 with ang := s1.ang.wrap }.settle

/-- `dt` ft pass (R1). When the count passes 2^64 − 1 on the way, the wrap is taken first (log 1). -/
def State.elapse (s : State) (dt : Nat) : State :=
  if s.tb.toNat + dt < 2 ^ 64 then { s with tb := s.tb + BitVec.ofNat 64 dt }
  else { s with tb := s.tb + BitVec.ofNat 64 dt }.wrapActions

/-- The timebase passes 2^64 − 1: the count becomes 0 and the wrap is taken. -/
def State.wrap (s : State) : State := { s with tb := 0 }.wrapActions

end Sys2Proof.Machine
end

