-- ==== Sys2Proof/Machine/Scan.lean ====
section
/-! DEFINITION. SCN, chapter 3: the scan state, its entries and exits, the reports of ANG and ECA, the scan timers and
the scan commands. -/

namespace Sys2Proof.Machine

/-! ### Entry to FAULT (R55) -/

/-- A pending scan reply ends CHECK FAULT with the cause as its code. -/
def State.failReply (cause : FaultCause) (s : State) (o : PortTag) : State :=
  s.finishCheck o.port o.tag .fault cause.code cause.info

/-- The pending start reply, then the pending stop replies in list order. -/
def Scn.pendingReplies (x : Scn) : List PortTag := x.startReply.toList ++ x.stopReplies

/-- SCN's own fields at entry to FAULT: cause, laser, timers, replies, state. -/
def Scn.toFault (x : Scn) (cause : FaultCause) : Scn :=
  { x with
    state := .fault
    cause := some cause
    laser := false
    armed := none
    drain := none
    startReply := none
    stopReplies := [] }

/-- The scan enters FAULT (R55): SCN's fields, ECA's discard, LNB's ABORTED close, the CHECK FAULT replies, and STATE and
FAULT on all ports. -/
def State.enterFault (s : State) (cause : FaultCause) : State :=
  let replies := s.scn.pendingReplies
  let s1 := { s with scn := s.scn.toFault cause, eca := s.eca.discardPulses }.abortLine
  ((replies.foldl (State.failReply cause) s1).raiseAll evState).raiseAll evFault

/-! ### Entry to RUNNING (R50) -/

/-- SCN's own fields at entry to RUNNING. -/
def Scn.toRunning (x : Scn) (startAz : Angle) : Scn :=
  { x with
    state := .running
    inBand := 0
    armed := none
    startAz := some startAz
    laser := true
    startReply := none }

/-- The final DONE of SCAN START, where its reply is still pending. -/
def State.startDone (s : State) (r : Option PortTag) : State :=
  match r with
  | none => s
  | some o => s.finish o.port o.tag .done

/-- The scan enters RUNNING at index time `t` (R50), LNB's spent revolution becomes absent (R61) and EXS begins (R100). -/
def State.enterRunning (s : State) (t : Time) : State :=
  let s1 := { s with
    scn := s.scn.toRunning (s.ang.azimuthQuery t)
    ang := { s.ang with travel := 0 }
    eca := { s.eca with prevEmit := none } }
  (((s1.startDone s.scn.startReply).raiseAll evState).clearSpent).exsEnterRunning

/-! ### Entry to DRAINING and the drain's end (R54) -/

/-- The scan enters DRAINING. -/
def State.enterDraining (s : State) : State :=
  { s with scn := { s.scn with
    state := .draining
    laser := false
    drain := some ⟨s.tb, usToFt s.scn.params.drainUs⟩ } }.raiseAll evState

/-- A pending stop reply ends DONE. -/
def State.stopDone (s : State) (o : PortTag) : State := s.finish o.port o.tag .done

/-- Drain completion: ECA and LNB finish (R38, R72), the scan is IDLE and the pending stops end DONE. -/
def State.completeDrain (s : State) : State :=
  let s1 := s.drainPulses
  let s2 := { s1 with scn := { s1.scn with state := .idle, drain := none, stopReplies := [] } }
  (s.scn.stopReplies.foldl State.stopDone s2).raiseAll evState

/-! ### Reports of ANG and ECA (R48, R51, R54) -/

def State.setInBand (s : State) (n : Nat) : State := { s with scn := { s.scn with inBand := n } }

/-- A revolution report taken in ARMED (R48). -/
def State.armedReport (s : State) (v : Verdict) (t : Time) : State :=
  match v with
  | .outOfBand => s.setInBand 0
  | .unmeasured => s.setInBand 0
  | .inBand =>
    match s.eca.link with
    | .down => s.setInBand 0
    | .up => if 2 ≤ s.scn.inBand + 1 then s.enterRunning t else s.setInBand (s.scn.inBand + 1)

/-- SCN takes a revolution report for a revolution that ended at `t`. -/
def State.revolutionReport (s : State) (v : Verdict) (t : Time) : State :=
  match s.scn.state with
  | .armed => s.armedReport v t
  | .running =>
    match v with
    | .outOfBand => s.enterFault .mirrorBand
    | .inBand => s
    | .unmeasured => s
  | .idle => s
  | .draining => s
  | .fault => s

def BandLossCause.faultCause : BandLossCause → FaultCause
  | .stall => .mirrorStall
  | .reverse => .mirrorReverse

/-- SCN takes a band-loss report. -/
def State.bandLossReport (s : State) (c : BandLossCause) : State :=
  match s.scn.state with
  | .armed => s.setInBand 0
  | .running => s.enterFault c.faultCause
  | .idle => s
  | .draining => s
  | .fault => s

/-- SCN takes a ranging-fault report with cause LINK (R51, R54, R21). -/
def State.linkReport (s : State) : State :=
  match s.scn.state with
  | .running => s.enterFault .rangingLink
  | .draining => s.enterFault .rangingLink
  | .idle => s
  | .armed => s
  | .fault => s

/-- ECA hands, and SCN takes, a ranging-fault report with cause RECORD, in RUNNING only (R40). -/
def State.recordReport (s : State) (code : Byte) : State :=
  match s.scn.state with
  | .running => s.enterFault (.rangingRecord code)
  | .draining => s
  | .idle => s
  | .armed => s
  | .fault => s

/-! ### The span test (R52) -/

/-- The magnitude of the travel, in au, has reached a non-zero span. -/
def spanReached (span : Nat) (travel : BitVec 64) : Bool :=
  decide (span ≠ 0) && decide (span ≤ travel.toInt.natAbs * 256)

/-- SCN takes a travel change. -/
def State.spanTest (s : State) : State :=
  match s.scn.state with
  | .running => if spanReached s.scn.params.azimuthSpan s.ang.travel then s.enterDraining else s
  | .idle => s
  | .armed => s
  | .draining => s
  | .fault => s

/-! ### Commands that are taken only in IDLE, and the gathering commands -/

/-- The command goes on in IDLE and is refused STATE in any other state. -/
def State.inIdle (s : State) (p : PortId) (tag : Tag) (k : State → State) : State :=
  match s.scn.state with
  | .idle => k s
  | .armed => s.refuse p tag .state 0 none
  | .running => s.refuse p tag .state 0 none
  | .draining => s.refuse p tag .state 0 none
  | .fault => s.refuse p tag .state 0 none

/-- BUSY when a like command is in flight on any port, else the command takes its tag and gathers. -/
def State.gatherAlone (s : State) (p : PortId) (tag : Tag) (like : Job → Bool) (j : Job) : State :=
  if s.anyJob like then s.answer p tag .busy else s.hold p tag j

def Job.isScanSetup : Job → Bool
  | .scanSetup _ => true
  | _ => false

/-- SCAN SETUP's own rule (R45). -/
def State.takeScanSetup (s : State) (p : PortId) (tag : Tag) : State :=
  s.inIdle p tag (fun s => s.gatherAlone p tag Job.isScanSetup (.scanSetup []))

/-- A gathering command whose last byte has arrived goes on in IDLE and ends refused STATE in any other state (R15, R45,
R76, R101, R103). -/
def State.idleAtLastByte (s : State) (p : PortId) (tag : Tag) (k : State → State) : State :=
  match s.scn.state with
  | .idle => k s
  | .armed => s.finishCheck p tag .state 0 none
  | .running => s.finishCheck p tag .state 0 none
  | .draining => s.finishCheck p tag .state 0 none
  | .fault => s.finishCheck p tag .state 0 none

/-- The scan parameters a block spells become the live set, the reply is DONE, and a changed ring size empties the ring
and closes the streams (R46; the order of the replies is log 25). -/
def State.installScanParams (s : State) (p : PortId) (tag : Tag) (q : ScanParams) : State :=
  let s1 := { s with scn := { s.scn with params := q } }.finish p tag .done
  if q.ringSize = s.scn.params.ringSize then s1 else s1.resizeRing

/-- The 64th byte of SCAN SETUP has arrived (R45, R46). -/
def State.completeScanSetup (s : State) (p : PortId) (tag : Tag) (block : List Byte) : State :=
  s.idleAtLastByte p tag (fun s =>
    match firstFailure (scanTests block) with
    | some n => s.finishCheck p tag .arg 0 (some n)
    | none => s.installScanParams p tag (scanParamsOf block))

/-! ### SCAN START, SCAN STOP, FAULT CLEAR -/

/-- SCAN START's own rule (R47). -/
def State.takeScanStart (s : State) (p : PortId) (tag : Tag) : State :=
  s.inIdle p tag (fun s =>
    ((({ s with scn := { s.scn with
          state := .armed
          session := s.scn.session + 1
          inBand := 0
          armed := some ⟨s.tb, msToFt s.scn.params.armedTimeoutMs⟩
          startAz := none
          startReply := some ⟨p, tag⟩ } }.hold p tag .scanStart).accept p tag).raiseAll evState))

/-- The pending start reply, if present, ends CHECK ABORTED. -/
def State.abortStartReply (s : State) : State :=
  match s.scn.startReply with
  | none => s
  | some o => { s with scn := { s.scn with startReply := none } }.finishCheck o.port o.tag .aborted 0 none

/-- The SCAN STOP joins the pending stop replies and is answered ACCEPTED. -/
def State.deferStop (s : State) (p : PortId) (tag : Tag) : State :=
  ({ s with scn := { s.scn with stopReplies := s.scn.stopReplies ++ [PortTag.mk p tag] } }.hold p tag .scanStop).accept p tag

/-- SCAN STOP's own rule (R53). -/
def State.takeScanStop (s : State) (p : PortId) (tag : Tag) : State :=
  match s.scn.state with
  | .idle => s.answer p tag .done
  | .armed =>
    ((({ s with scn := { s.scn with state := .idle, armed := none, inBand := 0 } }.abortStartReply).answer
      p tag .done).raiseAll evState)
  | .running => s.enterDraining.deferStop p tag
  | .draining => s.deferStop p tag
  | .fault => s.refuse p tag .state 0 none

/-- FAULT CLEAR's own rule (R56). -/
def State.takeFaultClear (s : State) (p : PortId) (tag : Tag) : State :=
  match s.scn.state with
  | .fault => ({ s with scn := { s.scn with state := .idle } }.answer p tag .done).raiseAll evState
  | .idle => s.refuse p tag .state 0 none
  | .armed => s.refuse p tag .state 0 none
  | .running => s.refuse p tag .state 0 none
  | .draining => s.refuse p tag .state 0 none

/-- SCN's part of RESTART (R59). -/
def Scn.restart (x : Scn) : Scn :=
  { x with
    state := .idle
    inBand := 0
    armed := none
    drain := none
    cause := none
    startAz := none
    startReply := none
    stopReplies := []
    laser := false }

/-! ### Meanings -/

/-- ARMED_TIMER_EXPIRY (R49). The timer runs only in ARMED. -/
def execArmedTimerExpiry (dt : Nat) (s : State) : Host.Outcome State Fault Refusal :=
  let s := s.elapse dt
  .next (if decide (s.scn.state = .armed) && timerDue s.scn.armed s.tb then (s.enterFault .mirrorBand).settle else s)

/-- DRAIN_TIMER_EXPIRY (R54). The timer runs only in DRAINING. -/
def execDrainTimerExpiry (dt : Nat) (s : State) : Host.Outcome State Fault Refusal :=
  let s := s.elapse dt
  .next (if decide (s.scn.state = .draining) && timerDue s.scn.drain s.tb then s.completeDrain.settle else s)

def execScanSetup (dt : Nat) (p : PortId) (tag : Tag) (s : State) : Host.Outcome State Fault Refusal :=
  .next (client p tag onlyControl (fun s => s.takeScanSetup p tag) (s.elapse dt))

def execScanStart (dt : Nat) (p : PortId) (tag : Tag) (s : State) : Host.Outcome State Fault Refusal :=
  .next (client p tag onlyControl (fun s => s.takeScanStart p tag) (s.elapse dt))

def execScanStop (dt : Nat) (p : PortId) (tag : Tag) (s : State) : Host.Outcome State Fault Refusal :=
  .next (client p tag onlyControl (fun s => s.takeScanStop p tag) (s.elapse dt))

def execFaultClear (dt : Nat) (p : PortId) (tag : Tag) (s : State) : Host.Outcome State Fault Refusal :=
  .next (client p tag onlyControl (fun s => s.takeFaultClear p tag) (s.elapse dt))

end Sys2Proof.Machine
end

