-- ==== Sys2Proof/Machine/Encoders.lean ====
section
/-! DEFINITION. The encoder inputs, chapter 1: quadrature edges, index inputs, the stall timer and MIRROR CALIBRATE. -/

namespace Sys2Proof.Machine

/-! ### Mirror edges (R4, R5, R6, R17, R18) -/

def State.setAng (s : State) (g : Ang) : State := { s with ang := g }

/-- An index fault raises ENCODER on all ports (R5 to R7). -/
def State.raiseIndexFault (s : State) (r : IndexResult) : State := if r.isFault then s.raiseAll evEncoder else s

/-- A revolution ends and its report goes to SCN (R17). -/
def State.endRevolution (s : State) : State :=
  let (g, v) := s.ang.endRevolution s.scn.params s.tb
  (s.setAng g).revolutionReport v s.tb

/-- A band loss and its report (R18). -/
def State.bandLoss (s : State) (c : BandLossCause) : State := (s.setAng s.ang.bandLoss).bandLossReport c

/-- A counted mirror edge: count, index and history, the stall timer, then what the speed monitor makes of it. -/
def State.mirrorEdge (s : State) (dir : Dir) (indexActive : Bool) : State :=
  let (g, r) := s.ang.mirrorEdge s.tb dir indexActive
  let s1 := (s.setAng (g.restartStall s.scn.params s.tb)).raiseIndexFault r
  match dir with
  | .backward => s1.bandLoss .reverse
  | .forward => if r.endsRevolution then s1.endRevolution else s1

/-! ### Azimuth edges (R4, R7, R19) -/

/-- A counted azimuth edge: count, index, history and travel, then SCN's span test and EXS (log 12). -/
def State.azimuthEdge (s : State) (dir : Dir) (indexActive : Bool) : State :=
  let (g, r) := s.ang.azimuthEdge s.tb dir indexActive
  (((s.setAng g).raiseIndexFault r).spanTest).exsTravel dir

/-- A quadrature error (R4); on the mirror it restarts the stall timer as every mirror edge does. -/
def State.quadratureError (s : State) (axis : Axis) : State :=
  let g := s.ang.quadratureError axis
  (s.setAng (match axis with
    | .mirror => g.restartStall s.scn.params s.tb
    | .azimuth => g)).raiseAll evEncoder

/-- The index input was inactive at a quadrature error: the armed flag is set while it is (R3). -/
def State.seeIndex (s : State) (axis : Axis) (indexActive : Bool) : State :=
  if indexActive then s else s.setAng (s.ang.indexInactive axis)

/-- A quadrature edge is taken at the count as it stands. -/
def State.takeEdge (s : State) (axis : Axis) (kind : EdgeKind) (indexActive : Bool) : State :=
  match kind, axis with
  | .forward, .mirror => s.mirrorEdge .forward indexActive
  | .backward, .mirror => s.mirrorEdge .backward indexActive
  | .forward, .azimuth => s.azimuthEdge .forward indexActive
  | .backward, .azimuth => s.azimuthEdge .backward indexActive
  | .bothChannels, a => (s.quadratureError a).seeIndex a indexActive

/-! ### The stall timer (R18) -/

/-- The expiry of the stall timer, which then stays stopped. -/
def State.stallExpiry (s : State) : State :=
  if timerDue s.ang.stall s.tb then ({ s with ang := { s.ang with stall := none } }.bandLoss .stall).settle else s

/-! ### MIRROR CALIBRATE (R15) -/

def Job.isCalibrate : Job → Bool
  | .mirrorCalibrate _ => true
  | _ => false

def State.takeMirrorCalibrate (s : State) (p : PortId) (tag : Tag) : State :=
  s.inIdle p tag (fun s => s.gatherAlone p tag Job.isCalibrate (.mirrorCalibrate []))

/-- The 512th byte of MIRROR CALIBRATE has arrived. -/
def State.completeMirrorCalibrate (s : State) (p : PortId) (tag : Tag) (data : List Byte) : State :=
  s.idleAtLastByte p tag (fun s =>
    (s.setAng { s.ang with calibration := calibrationOf data }).finish p tag .done)

/-! ### Meanings -/

def execQuadratureEdge (dt : Nat) (axis : Axis) (kind : EdgeKind) (indexActive : Bool) (s : State) :
    Host.Outcome State Fault Refusal :=
  .next ((s.elapse dt).takeEdge axis kind indexActive).settle

def execIndexInactive (dt : Nat) (axis : Axis) (s : State) : Host.Outcome State Fault Refusal :=
  let s := s.elapse dt
  .next (s.setAng (s.ang.indexInactive axis))

def execStallTimerExpiry (dt : Nat) (s : State) : Host.Outcome State Fault Refusal :=
  .next (s.elapse dt).stallExpiry

def execMirrorCalibrate (dt : Nat) (p : PortId) (tag : Tag) (s : State) : Host.Outcome State Fault Refusal :=
  .next (client p tag onlyControl (fun s => s.takeMirrorCalibrate p tag) (s.elapse dt))

end Sys2Proof.Machine
end

