-- ==== Sys2Proof/Machine/RangingLink.lean ====
section
/-! DEFINITION. The ranging link, chapter 2: its training and loss and the three kinds of record. While the link is DOWN
no record arrives (R21): such a command changes nothing but the time (log 3). -/

namespace Sys2Proof.Machine

/-- Training completes: TB sends its count (R2), and then the link is UP (R21). -/
def State.rangingUp (s : State) : State :=
  match s.eca.link with
  | .up => s
  | .down => { s with eca := { s.eca with link := .up, countSent := some s.tb } }

/-- The link is lost (R21). -/
def State.rangingLoss (s : State) : State :=
  match s.eca.link with
  | .down => s
  | .up =>
    (({ s with eca := { s.eca with
        link := .down
        lastFault := some .link
        counters := { s.eca.counters with
          rangingLinkLosses := bump s.eca.counters.rangingLinkLosses 1 } } }.raiseAll evRanging).linkReport).settle

/-- A record is taken while the link is UP. -/
def State.onRecord (s : State) (k : State → State) : State :=
  match s.eca.link with
  | .down => s
  | .up => k s

/-- A FAULT record (R40). -/
def State.takeFaultRecord (s : State) (code : Byte) : State :=
  ({ s with eca := { s.eca with
      lastFault := some (.record code)
      counters := { s.eca.counters with
        rangingFaultRecords := bump s.eca.counters.rangingFaultRecords 1 } } }.raiseAll evRanging).recordReport code

/-! ### Meanings -/

def execRangingLinkUp (dt : Nat) (s : State) : Host.Outcome State Fault Refusal :=
  .next (s.elapse dt).rangingUp

def execRangingLinkLoss (dt : Nat) (s : State) : Host.Outcome State Fault Refusal :=
  .next (s.elapse dt).rangingLoss

def execEmit (dt : Nat) (id : BitVec 16) (time : Time) (s : State) : Host.Outcome State Fault Refusal :=
  .next ((s.elapse dt).onRecord (fun s => (s.takeEmit id time).settle))

def execEcho (dt : Nat) (reference : BitVec 16) (delay : BitVec 28) (amplitude : BitVec 16) (width : BitVec 8)
    (saturated : Bool) (s : State) : Host.Outcome State Fault Refusal :=
  .next ((s.elapse dt).onRecord (fun s => s.takeEcho ⟨reference, delay, amplitude, width, saturated⟩))

def execFaultRecord (dt : Nat) (code : Byte) (s : State) : Host.Outcome State Fault Refusal :=
  .next ((s.elapse dt).onRecord (fun s => (s.takeFaultRecord code).settle))

end Sys2Proof.Machine
end

