-- ==== Sys2Proof/Machine/Masks.lean ====
section
/-! DEFINITION. MASK LOAD, chapter 4. -/

namespace Sys2Proof.Machine

def Job.isMaskLoad : Job → Bool
  | .maskLoad _ _ => true
  | _ => false

/-- The largest counts of MASK LOAD, STATION LOAD, EXPOSURES READ and LINES READ (R76, R103, R116, R149). -/
def maxMaskEntries : Nat := 32
def maxStations : Nat := 64
def maxExposuresRead : Nat := 64
def maxLinesRead : Nat := 64

/-- The bytes of a mask entry and of a station (11.4). -/
def maskEntrySize : Nat := 16
def stationSize : Nat := 4

/-- R192: a count above the largest one is refused ARG with the operand's number, before the command's own tests. -/
def State.countTest (s : State) (p : PortId) (tag : Tag) (count : Byte) (largest operand : Nat) (k : State → State) :
    State :=
  if largest < count.toNat then s.refuse p tag .arg 0 (some operand) else k s

/-- The mask list becomes empty and the reply is DONE. -/
def State.emptyMask (s : State) (p : PortId) (tag : Tag) : State :=
  { s with lnb := { s.lnb with mask := [] } }.answer p tag .done

/-- MASK LOAD's own rule (R76), with R192's test of the count, which is not made when EMPTY is set. -/
def State.takeMaskLoad (s : State) (p : PortId) (tag : Tag) (empty : Bool) (count : Byte) : State :=
  if empty then
    s.inIdle p tag (fun s => if s.anyJob Job.isMaskLoad then s.answer p tag .busy else s.emptyMask p tag)
  else
    s.countTest p tag count maxMaskEntries 1 (fun s =>
      s.inIdle p tag (fun s =>
        s.gatherAlone p tag Job.isMaskLoad (.maskLoad (countOf count.toNat maxMaskEntries) [])))

/-- The last byte of the last entry has arrived (R76, R77). -/
def State.completeMaskLoad (s : State) (p : PortId) (tag : Tag) (entries : Nat) (data : List Byte) : State :=
  s.idleAtLastByte p tag (fun s =>
    let records := recordsOf maskEntrySize entries data
    match maskFailure 0 none records with
    | some (i, code) => s.finishCheck p tag .arg code (some i)
    | none => { s with lnb := { s.lnb with mask := records.map maskEntryOf } }.finish p tag .done)

def execMaskLoad (dt : Nat) (p : PortId) (tag : Tag) (empty : Bool) (count : Byte) (s : State) :
    Host.Outcome State Fault Refusal :=
  .next (client p tag onlyControl (fun s => s.takeMaskLoad p tag empty count) (s.elapse dt))

end Sys2Proof.Machine
end

