-- ==== Sys2Proof/Machine/Camera.lean ====
section
/-! DEFINITION. The camera's strobe, the exposure timers and the commands of EXS, chapter 6. -/

namespace Sys2Proof.Machine

/-! ### CAMERA SETUP (R101, R102) -/

def Job.isCameraSetup : Job → Bool
  | .cameraSetup _ => true
  | _ => false

def State.takeCameraSetup (s : State) (p : PortId) (tag : Tag) : State :=
  s.inIdle p tag (fun s => s.gatherAlone p tag Job.isCameraSetup (.cameraSetup []))

/-- The 32nd byte has arrived: validation, then the whole setup and the periodic counter. -/
def State.completeCameraSetup (s : State) (p : PortId) (tag : Tag) (block : List Byte) : State :=
  s.idleAtLastByte p tag (fun s =>
    match firstFailure (cameraTests block) with
    | some n => s.finishCheck p tag .arg 0 (some n)
    | none =>
      let q := cameraSetupOf block
      { s with exs := { s.exs with setup := q, periodic := q.interval } }.finish p tag .done)

/-! ### STATION LOAD (R103) -/

def Job.isStationLoad : Job → Bool
  | .stationLoad _ _ => true
  | _ => false

/-- The station list takes new values, and the next station index becomes 0. -/
def Exs.setStations (x : Exs) (values : List Nat) : Exs := { x with stations := values, nextStation := 0 }

def State.emptyStations (s : State) (p : PortId) (tag : Tag) : State :=
  { s with exs := s.exs.setStations [] }.answer p tag .done

/-- STATION LOAD's own rule, with R192's test of the count, which is not made when EMPTY is set. -/
def State.takeStationLoad (s : State) (p : PortId) (tag : Tag) (empty : Bool) (count : Byte) : State :=
  if empty then
    s.inIdle p tag (fun s => if s.anyJob Job.isStationLoad then s.answer p tag .busy else s.emptyStations p tag)
  else
    s.countTest p tag count maxStations 1 (fun s =>
      s.inIdle p tag (fun s =>
        s.gatherAlone p tag Job.isStationLoad (.stationLoad (countOf count.toNat maxStations) [])))

/-- The last byte of the last station has arrived. -/
def State.completeStationLoad (s : State) (p : PortId) (tag : Tag) (stations : Nat) (data : List Byte) : State :=
  s.idleAtLastByte p tag (fun s =>
    let values := (recordsOf stationSize stations data).map stationOf
    match stationFailure 0 none values with
    | some i => s.finishCheck p tag .arg 0 (some i)
    | none => { s with exs := s.exs.setStations (values.map Int.toNat) }.finish p tag .done)

/-! ### EXPOSURES READ and EXPOSURE DROP (R115, R116) -/

/-- The records EXPOSURES READ sends. -/
def Exs.recordsAfter (x : Exs) (after count : Nat) : List Exposure :=
  (x.log.filter (fun e => decide (after < e.id))).take count

/-- EXPOSURES READ, after R192's test of the count. -/
def State.takeExposuresRead (s : State) (p : PortId) (tag : Tag) (after : BitVec 32) (count : Byte) : State :=
  s.countTest p tag count maxExposuresRead 2 (fun s =>
    let records := s.exs.recordsAfter after.toNat (countOf count.toNat maxExposuresRead)
    s.deliver p tag 0x22 (payloadsOf (records.flatMap (fun e => e.bytes s.tb))))

/-- EXPOSURE DROP's own rule; the end notice lets CLR queue the back-fill, which the free engine may begin. -/
def State.takeExposureDrop (s : State) (p : PortId) (tag : Tag) (exposure : BitVec 32) : State :=
  match s.exs.exposure exposure.toNat with
  | none => s.refuse p tag .gone 0 none
  | some e =>
    match e.state with
    | .triggered => s.refuse p tag .state 0 none
    | .loading => s.refuse p tag .state 0 none
    | .exposed =>
      let s1 := { s with exs := s.exs.mapLog e.id (fun e => { e with state := .dropped, deadline := none, held := none }) }
      ((s1.endNotice e.id).answer p tag .done).settle
    | .tiled => s.refuse p tag .arg 0 none
    | .expired => s.refuse p tag .arg 0 none
    | .dropped => s.refuse p tag .arg 0 none
    | .missed => s.refuse p tag .arg 0 none

/-! ### Meanings -/

def execStrobeRise (dt : Nat) (s : State) : Host.Outcome State Fault Refusal :=
  .next (s.elapse dt).strobeRise

def execStrobeFall (dt : Nat) (s : State) : Host.Outcome State Fault Refusal :=
  .next (s.elapse dt).strobeFall

def execStrobeTimeoutExpiry (dt : Nat) (s : State) : Host.Outcome State Fault Refusal :=
  .next (s.elapse dt).strobeTimeout

def execTileDeadlineExpiry (dt : Nat) (exposure : BitVec 32) (s : State) : Host.Outcome State Fault Refusal :=
  .next ((s.elapse dt).tileDeadline exposure.toNat).settle

def execCameraSetup (dt : Nat) (p : PortId) (tag : Tag) (s : State) : Host.Outcome State Fault Refusal :=
  .next (client p tag imagingOrControl (fun s => s.takeCameraSetup p tag) (s.elapse dt))

def execStationLoad (dt : Nat) (p : PortId) (tag : Tag) (empty : Bool) (count : Byte) (s : State) :
    Host.Outcome State Fault Refusal :=
  .next (client p tag onlyImaging (fun s => s.takeStationLoad p tag empty count) (s.elapse dt))

def execExposuresRead (dt : Nat) (p : PortId) (tag : Tag) (after : BitVec 32) (count : Byte) (s : State) :
    Host.Outcome State Fault Refusal :=
  .next (client p tag everyRole (fun s => s.takeExposuresRead p tag after count) (s.elapse dt))

def execExposureDrop (dt : Nat) (p : PortId) (tag : Tag) (exposure : BitVec 32) (s : State) :
    Host.Outcome State Fault Refusal :=
  .next (client p tag onlyImaging (fun s => s.takeExposureDrop p tag exposure) (s.elapse dt))

end Sys2Proof.Machine
end

