-- ==== Sys2Proof/Machine/Tiles.lean ====
section
/-! DEFINITION. TILE LOAD, TILE RETIRE and TILES LIST, chapter 7. -/

namespace Sys2Proof.Machine

/-! ### TILE LOAD (R122 to R125) -/

def Job.isTileLoad : Job → Bool
  | .tileDescriptor _ _ => true
  | .tileCells _ => true
  | _ => false

/-- TILE LOAD's own rule at its CB (R122). -/
def State.takeTileLoad (s : State) (p : PortId) (tag : Tag) (exposure : BitVec 32) (priority w h : Byte) : State :=
  if s.anyJobOn p Job.isTileLoad then s.answer p tag .busy
  else s.hold p tag (.tileDescriptor ⟨exposure.toNat, priority.toNat, gridOf w, gridOf h⟩ [])

def descriptorSize : Nat := 12
def maxTileWidth : Nat := 8388608

/-- The tests of R123 on the fields alone, each with the field number it is charged to. -/
def descriptorTests (ops : TileOperands) (w : AngularWindow) : List (Nat × Bool) :=
  [ (1, decide (ops.priority ≤ 3)),
    (5, inRange 1 maxTileWidth w.azWidth),
    (7, decide (w.mLow.toNat < w.mHigh.toNat)) ]

/-- The slot a load is given at its acceptance (R123). -/
def loadingSlot (k : Nat) (ops : TileOperands) (w : AngularWindow) (owner : PortTag) : TileSlot where
  slot := k
  state := .loading
  exposure := ops.exposure
  window := w
  w := ops.w
  h := ops.h
  priority := ops.priority
  pins := 0
  owner := some owner
  received := 0
  written := 0

/-- The load is accepted into FREE slot `k` (R123, R113). -/
def State.acceptTile (s : State) (p : PortId) (tag : Tag) (ops : TileOperands) (w : AngularWindow) (k : Nat) : State :=
  ({ s with
      clr := { s.clr with slots := insertSlot (loadingSlot k ops w ⟨p, tag⟩) s.clr.slots }
      exs := s.exs.mapLog ops.exposure (fun e => e.load k s.tb) }.hold p tag (.tileCells k)).accept p tag

/-- Tests 4 to 6 of R123. -/
def State.placeTile (s : State) (p : PortId) (tag : Tag) (ops : TileOperands) (w : AngularWindow) : State × Option Nat :=
  match s.exs.exposure ops.exposure with
  | none => (s.finishCheck p tag .gone 0 none, none)
  | some e =>
    if e.state = .exposed then
      match s.clr.freeSlot with
      | none => (s.finishCheck p tag .full 0 none, none)
      | some k => (s.acceptTile p tag ops w k, some k)
    else (s.finishCheck p tag .state 0 none, none)

/-- The tile loader is given the cell bytes that the slot still needs (R124); bytes beyond the last are ignored. -/
def State.takeCells (s : State) (k : Nat) (bytes : List Byte) : State :=
  match s.clr.slot k with
  | none => s
  | some t =>
    let cells := bytes.take (t.cellBytes - t.received)
    { s with clr := { s.clr.mapSlot k (fun t => { t with received := t.received + cells.length }) with
      loader := s.clr.loader ++ (if cells.isEmpty then [] else [LoadChunk.mk k cells]) } }

/-- The 12th descriptor byte has arrived; `bytes` are all the bytes so far (R123). -/
def State.completeDescriptor (s : State) (p : PortId) (tag : Tag) (ops : TileOperands) (bytes : List Byte) : State :=
  let w := descriptorOf bytes
  match firstFailure (descriptorTests ops w) with
  | some n => s.finishCheck p tag .arg 0 (some n)
  | none =>
    match s.placeTile p tag ops w with
    | (s1, some k) => s1.takeCells k (bytes.drop descriptorSize)
    | (s1, none) => s1

/-- An accepted load is aborted (R125, R113). -/
def State.abortLoad (s : State) (k : Nat) : State :=
  match s.clr.slot k with
  | none => s
  | some t =>
    { s with
      clr := { s.clr.dropSlot k with loader := s.clr.loader.filter (fun c => decide (c.slot ≠ k)) }
      exs := s.exs.mapLog t.exposure (fun e => e.unload s.tb) }.withdraw (.tileLoader k)

/-! ### TILE RETIRE (R126) -/

/-- A slot that has left VALID has its sectors rebuilt (R131). -/
def State.rebuildFor (s : State) (t : TileSlot) : State := { s with clr := s.clr.rebuild t.window }

/-- A VALID slot is retired: at once when it is not pinned, else it waits as RETIRING. -/
def State.retireTile (s : State) (p : PortId) (tag : Tag) (t : TileSlot) : State :=
  if t.pins = 0 then ({ s with clr := s.clr.dropSlot t.slot }.rebuildFor t).answer p tag .done
  else
    ((({ s with clr := s.clr.mapSlot t.slot (fun t =>
          { t with state := .retiring, owner := some (PortTag.mk p tag) }) }.rebuildFor t).hold p tag
      (.tileRetire t.slot)).accept p tag)

/-- TILE RETIRE's own rule. A slot number above 47 names no slot of the table. -/
def State.takeTileRetire (s : State) (p : PortId) (tag : Tag) (slot : Byte) (exposure : BitVec 32) : State :=
  match s.clr.slot slot.toNat with
  | none => s.refuse p tag .arg 0 (some 1)
  | some t =>
    if slotCount ≤ slot.toNat then s.refuse p tag .arg 0 (some 1)
    else
      match t.state with
      | .loading => s.refuse p tag .arg 0 (some 1)
      | .retiring =>
        if t.exposure = exposure.toNat then s.refuse p tag .state 0 none else s.refuse p tag .gone 0 none
      | .valid =>
        if t.exposure = exposure.toNat then s.retireTile p tag t else s.refuse p tag .gone 0 none

/-! ### TILES LIST (R128) -/

/-- One entry for each slot that is not FREE. -/
def Clr.tileEntries (c : Clr) : List Byte :=
  c.slots.flatMap (fun t => t.bytes (overlappedSectors t.window) (c.indexedSectors t.slot))

def State.takeTilesList (s : State) (p : PortId) (tag : Tag) : State :=
  s.deliver p tag 0x32 (payloadsOf s.clr.tileEntries)

/-! ### Meanings -/

def execTileLoad (dt : Nat) (p : PortId) (tag : Tag) (exposure : BitVec 32) (priority w h : Byte) (s : State) :
    Host.Outcome State Fault Refusal :=
  .next (client p tag onlyImaging (fun s => s.takeTileLoad p tag exposure priority w h) (s.elapse dt))

def execTileRetire (dt : Nat) (p : PortId) (tag : Tag) (slot : Byte) (exposure : BitVec 32) (s : State) :
    Host.Outcome State Fault Refusal :=
  .next (client p tag onlyImaging (fun s => s.takeTileRetire p tag slot exposure) (s.elapse dt))

def execTilesList (dt : Nat) (p : PortId) (tag : Tag) (s : State) : Host.Outcome State Fault Refusal :=
  .next (client p tag everyRole (fun s => s.takeTilesList p tag) (s.elapse dt))

end Sys2Proof.Machine
end

