-- ==== Sys2Proof/Machine/Engines.lean ====
section
/-! DEFINITION. The steps of the engines that work on their own: abandonment reports, DRAM transfers, colour passes, tile
loads and deliveries (R74, R94, R137, R142, R124, R150). -/

namespace Sys2Proof.Machine

/-- LNB takes the oldest abandonment report (R74); with none waiting nothing happens (log 3). -/
def State.takeAbandonment (s : State) : State :=
  match s.lnb.reports with
  | [] => s
  | n :: rest => { s with lnb := { (s.lnb.takeReport n) with reports := rest } }

/-- The transfer in progress is CLR's, still wanted, and writes the header of a pass or step for which `kind` holds: its
end is the end of that pass or step (log 6). -/
def State.passEnds (s : State) (kind : PassKind → Bool) : Bool :=
  match s.rng.inProgress, s.clr.pass with
  | some ⟨.clr, true⟩, some x => kind x.kind && s.passAtEnd x
  | _, _ => false

def PassKind.isFirst : PassKind → Bool
  | .firstPass => true
  | .task _ => false
  | .sweep => false

/-- The first pass in progress ends (R137). -/
def State.firstPassEnd (s : State) : State := if s.passEnds PassKind.isFirst then s.endTransfer 0 else s

/-- The back-fill step in progress ends (R142, R143). -/
def State.backfillStepEnd (s : State) : State := if s.passEnds PassKind.isStep then s.endTransfer 0 else s

/-- The bytes of the tile loader's transfer in progress, when they are the last of a load (R124, log 6). -/
def State.lastCells (s : State) : Option Nat :=
  match s.rng.inProgress, s.clr.loader with
  | some ⟨.tileLoader k, true⟩, chunk :: _ =>
    match s.clr.slot k with
    | none => none
    | some t =>
      if chunk.bytes.length ≤ transferSize ∧ t.written + chunk.bytes.length = t.cellBytes then some chunk.bytes.length
      else none
  | _, _ => none

/-- The last cell transfer of a load ends (R124). -/
def State.tileLoadComplete (s : State) : State :=
  match s.lastCells with
  | none => s
  | some n => s.endTransfer n

/-- The last byte of the line being delivered on port `p` has been sent: all of it is handed and none of its frames waits
in the queue (R150, log 10). -/
def State.lineDelivered (s : State) (p : PortId) : Option (LinesRead × RingLine) :=
  match (s.stream p).read with
  | none => none
  | some r =>
    match r.state with
    | .waiting => none
    | .delivering _ false _ => none
    | .delivering n true sent =>
      match s.rng.lookup n with
      | none => none
      | some l => if sent = l.size ∧ (s.port p).paced r.tag = true then some (r, l) else none

/-- The delivery of a line completes (R150, R151). -/
def State.lineDeliveryComplete (s : State) (p : PortId) : State :=
  match s.lineDelivered p with
  | none => s
  | some (r, l) => (s.completeDelivery p r l).settle

/-! ### Meanings -/

def execAbandonmentReport (dt : Nat) (s : State) : Host.Outcome State Fault Refusal :=
  .next (s.elapse dt).takeAbandonment

def execDramTransferEnd (dt : Nat) (work : Nat) (s : State) : Host.Outcome State Fault Refusal :=
  .next ((s.elapse dt).endTransfer work)

def execFirstPassEnd (dt : Nat) (s : State) : Host.Outcome State Fault Refusal :=
  .next (s.elapse dt).firstPassEnd

def execBackfillStepEnd (dt : Nat) (s : State) : Host.Outcome State Fault Refusal :=
  .next (s.elapse dt).backfillStepEnd

def execTileLoadComplete (dt : Nat) (s : State) : Host.Outcome State Fault Refusal :=
  .next (s.elapse dt).tileLoadComplete

def execLineDeliveryComplete (dt : Nat) (p : PortId) (s : State) : Host.Outcome State Fault Refusal :=
  .next ((s.elapse dt).lineDeliveryComplete p)

end Sys2Proof.Machine
end

