-- ==== Sys2Proof/Machine/StreamCommands.lean ====
section
/-! DEFINITION. The stream commands and LINE FIND, chapter 8. -/

namespace Sys2Proof.Machine

/-! ### STREAM OPEN and STREAM CLOSE (R148, R156) -/

/-- The stream of a port opens at a start line; READY is raised when a line is deliverable at once (R154). -/
def State.openStream (s : State) (p : PortId) (tag : Tag) (mode : StreamMode) (start : StreamStart) : State :=
  let s1 := s.modStr p (fun _ => openedStream mode (s.port p).role (startLineOf s.rng start))
  let s2 := if (s1.deliverable p).isSome then s1.raiseOn p evReady else s1
  s2.answer p tag .done

def State.takeStreamOpen (s : State) (p : PortId) (tag : Tag) (mode start : Byte) (line : BitVec 32) : State :=
  match streamModeOf mode.toNat with
  | none => s.refuse p tag .arg 0 (some 1)
  | some m =>
    match streamStartOf start.toNat line.toNat with
    | none => s.refuse p tag .arg 0 (some 2)
    | some st => if (s.stream p).isOpen then s.refuse p tag .state 0 none else s.openStream p tag m st

/-- STREAM CLOSE's own rule; the reader's withdrawn request and its hold may let other work begin. -/
def State.takeStreamClose (s : State) (p : PortId) (tag : Tag) : State :=
  ((s.closeStream p true).answer p tag .done).settle

/-! ### LINES READ (R149) -/

/-- The command becomes the outstanding LINES READ: DELIVERING when a line is deliverable, else WAITING and ACCEPTED. -/
def State.startRead (s : State) (p : PortId) (tag : Tag) (count : Nat) : State :=
  let r : LinesRead := ⟨tag, count, .waiting⟩
  let s1 := (s.setRead p (some r)).hold p tag .linesRead
  match s1.deliverable p with
  | some l => s1.beginLine p r l.number
  | none => s1.accept p tag

def State.takeLinesRead (s : State) (p : PortId) (tag : Tag) (count : Byte) : State :=
  s.countTest p tag count maxLinesRead 1 (fun s =>
    if (s.stream p).isOpen then
      match (s.stream p).read with
      | some _ => s.answer p tag .busy
      | none => (s.startRead p tag (countOf count.toNat maxLinesRead)).settle
    else s.refuse p tag .state 0 none)

/-! ### LINES RELEASE (R155) -/

def Stream.release (st : Stream) (n : Nat) : Stream :=
  { st with releasePoint := max st.releasePoint (min n st.readPoint) }

def State.takeLinesRelease (s : State) (p : PortId) (tag : Tag) (n : BitVec 32) : State :=
  if (s.stream p).isOpen then (s.modStr p (fun st => st.release n.toNat)).answer p tag .done
  else s.refuse p tag .state 0 none

/-! ### LINES CHECK (R161) -/

def CheckEntry.isChanged (e : CheckEntry) : Bool := decide (e.state = .changed)

/-- The lines a LINES CHECK reports, in table order. -/
def Stream.changedLines (st : Stream) : List Nat := (st.table.filter CheckEntry.isChanged).map CheckEntry.line

/-- The stream once its changes have been collected. -/
def Stream.collected (st : Stream) : Stream :=
  { st with table := st.table.filter (fun e => !e.isChanged), unsure := none }

def State.takeLinesCheck (s : State) (p : PortId) (tag : Tag) : State :=
  let st := s.stream p
  (s.modStr p Stream.collected).deliver p tag 0x44 (payloadsOf (checkReport st.unsure st.changedLines))

/-! ### LINE FIND (R162, R163) -/

/-- What LINE FIND looks for. -/
inductive Criterion where
  | azimuth (x : Angle)
  | flags (mask value : Byte)
  deriving DecidableEq, Repr

def criterionOf (code : Nat) (azimuth : Angle) (mask value : Byte) : Option Criterion :=
  match code with
  | 0 => some (.azimuth azimuth)
  | 1 => some (.flags mask value)
  | _ => none

/-- A line meets a criterion (R162). -/
def Criterion.meets (c : Criterion) (h : LineHeader) : Bool :=
  match c with
  | .azimuth x => decide ((x - h.firstA).toNat ≤ (h.lastA - h.firstA).toNat)
  | .flags mask value => h.flags.matches mask value

/-- The first committed line at or above `start` that matches. -/
def Rng.findLine (r : Rng) (start : Nat) (c : Criterion) (invert : Bool) : Option Nat :=
  (r.committed.find? (fun l => decide (start ≤ l.number) && (c.meets l.header ^^ invert))).map RingLine.number

/-- LINE FIND sets the sense record whatever it finds (R163). -/
def State.answerFind (s : State) (p : PortId) (tag : Tag) (found : Option Nat) : State :=
  (s.modPort p (fun q => { q with sense := ⟨.none, 0, found.getD 0, found.isSome, tag⟩ })).answer p tag
    (if found.isSome then .isMatch else .done)

/-- LINE FIND's own rule. A start line of 0 means the oldest committed line, which every committed number is above. -/
def State.takeLineFind (s : State) (p : PortId) (tag : Tag) (start : BitVec 32) (criterion : Byte) (azimuth : Angle)
    (mask value : Byte) (invert : Bool) : State :=
  match criterionOf criterion.toNat azimuth mask value with
  | none => s.refuse p tag .arg 0 (some 2)
  | some c => s.answerFind p tag (s.rng.findLine start.toNat c invert)

/-! ### Meanings -/

def execStreamOpen (dt : Nat) (p : PortId) (tag : Tag) (mode start : Byte) (startLine : BitVec 32) (s : State) :
    Host.Outcome State Fault Refusal :=
  .next (client p tag everyRole (fun s => s.takeStreamOpen p tag mode start startLine) (s.elapse dt))

def execStreamClose (dt : Nat) (p : PortId) (tag : Tag) (s : State) : Host.Outcome State Fault Refusal :=
  .next (client p tag everyRole (fun s => s.takeStreamClose p tag) (s.elapse dt))

def execLinesRead (dt : Nat) (p : PortId) (tag : Tag) (count : Byte) (s : State) : Host.Outcome State Fault Refusal :=
  .next (client p tag everyRole (fun s => s.takeLinesRead p tag count) (s.elapse dt))

def execLinesRelease (dt : Nat) (p : PortId) (tag : Tag) (n : BitVec 32) (s : State) :
    Host.Outcome State Fault Refusal :=
  .next (client p tag everyRole (fun s => s.takeLinesRelease p tag n) (s.elapse dt))

def execLinesCheck (dt : Nat) (p : PortId) (tag : Tag) (s : State) : Host.Outcome State Fault Refusal :=
  .next (client p tag everyRole (fun s => s.takeLinesCheck p tag) (s.elapse dt))

def execLineFind (dt : Nat) (p : PortId) (tag : Tag) (startLine : BitVec 32) (criterion : Byte) (azimuth : BitVec 24)
    (mask value : Byte) (invert : Bool) (s : State) : Host.Outcome State Fault Refusal :=
  .next (client p tag everyRole
    (fun s => s.takeLineFind p tag startLine criterion azimuth mask value invert) (s.elapse dt))

end Sys2Proof.Machine
end

