-- ==== Sys2Proof/Machine/Attention.lean ====
section
/-! DEFINITION. The attention commands, chapter 10. -/

namespace Sys2Proof.Machine

/-! ### EVENT SETUP (R185) -/

def priorityModeOf : Nat → Option PriorityMode
  | 0 => some .fixed
  | 1 => some .rotate
  | _ => none

/-- The first position a byte names, from 0 to 11. -/
def firstPositionOf (n : Nat) : Option EventPos := if h : n < 12 then some ⟨n, h⟩ else none

/-- The controller once set up. -/
def Atn.setup (a : Atn) (enable : EventSet) (mode : PriorityMode) (first : EventPos) : Atn :=
  { a with enable := enable, mode := mode, first := first, rank := rankFrom first }

/-- EVENT SETUP's own rule: the operands tested in their order, then all three taken. -/
def State.takeEventSetup (s : State) (p : PortId) (tag : Tag) (enable : BitVec 16) (mode first : Byte) : State :=
  if 4095 < enable.toNat then s.refuse p tag .arg 0 (some 1)
  else
    match priorityModeOf mode.toNat with
    | none => s.refuse p tag .arg 0 (some 2)
    | some m =>
      match firstPositionOf first.toNat with
      | none => s.refuse p tag .arg 0 (some 3)
      | some f => (s.modAtn p (fun a => a.setup (enable.setWidth 12) m f)).answer p tag .done

/-! ### EVENT NEXT (R186) -/

/-- The position EVENT NEXT reports: the highest in rank that is pending and enabled. -/
def Atn.nextPosition (a : Atn) : Option EventPos :=
  a.rank.find? (fun e => EventSet.has a.pending e && EventSet.has a.enable e)

/-- The rank order after `e` is reported. -/
def Atn.rankAfter (a : Atn) (e : EventPos) : List EventPos :=
  match a.mode with
  | .fixed => a.rank
  | .rotate => a.rank.erase e ++ [e]

/-- The controller after an EVENT NEXT, with the position reported and its double flag. -/
def Atn.next (a : Atn) : Atn × Option EventPos × Bool :=
  match a.nextPosition with
  | none => (a, none, false)
  | some e =>
    ({ a with
        pending := EventSet.erase a.pending e
        double := EventSet.erase a.double e
        rank := a.rankAfter e }, some e, EventSet.has a.double e)

def State.takeEventNext (s : State) (p : PortId) (tag : Tag) : State :=
  let (a, e, double) := (s.atn.get p).next
  (s.modAtn p (fun _ => a)).deliver p tag 0x09 [eventReport e double a]

/-! ### EVENT FREEZE (R187) -/

/-- The end of a freeze: the held set is merged into the pending set. -/
def Atn.unfreeze (a : Atn) : Atn :=
  if a.frozen then
    { a with
      pending := a.pending ||| a.held
      double := a.double ||| (a.pending &&& a.held)
      held := 0
      frozen := false }
  else a

def State.takeEventFreeze (s : State) (p : PortId) (tag : Tag) (onOff : Byte) : State :=
  match onOff.toNat with
  | 0 => (s.modAtn p Atn.unfreeze).answer p tag .done
  | 1 => (s.modAtn p (fun a => { a with frozen := true })).answer p tag .done
  | _ => s.refuse p tag .arg 0 (some 1)

/-- ATN's part of RESTART (R188). -/
def Atn.restart (a : Atn) : Atn := { a with pending := 0, double := 0, held := 0 }

/-! ### Meanings -/

def execEventSetup (dt : Nat) (p : PortId) (tag : Tag) (enable : BitVec 16) (mode first : Byte) (s : State) :
    Host.Outcome State Fault Refusal :=
  .next (client p tag everyRole (fun s => s.takeEventSetup p tag enable mode first) (s.elapse dt))

def execEventNext (dt : Nat) (p : PortId) (tag : Tag) (s : State) : Host.Outcome State Fault Refusal :=
  .next (client p tag everyRole (fun s => s.takeEventNext p tag) (s.elapse dt))

def execEventFreeze (dt : Nat) (p : PortId) (tag : Tag) (onOff : Byte) (s : State) : Host.Outcome State Fault Refusal :=
  .next (client p tag everyRole (fun s => s.takeEventFreeze p tag onOff) (s.elapse dt))

end Sys2Proof.Machine
end

