-- ==== Sys2Proof/Machine/Ports.lean ====
section
/-! DEFINITION. PRT, chapter 9: client links, data frames, the ends of commands in flight, port reset, SENSE READ and
IDENTIFY. -/

namespace Sys2Proof.Machine

/-! ### Undoing a command in flight (9.8) -/

def State.dropStop (s : State) (o : PortTag) : State :=
  { s with scn := { s.scn with stopReplies := s.scn.stopReplies.filter (fun x => decide (x ≠ o)) } }

/-- What the owner of a command undoes when the command is ended by a TAG ABORT or a port reset. The bytes gathered so
far leave with the tag. No READY is raised when a LINES READ is aborted, a DESIGN CHOICE (log 34). -/
def State.undo (s : State) (p : PortId) (tag : Tag) (j : Job) : State :=
  match j with
  | .mirrorCalibrate _ => s
  | .scanSetup _ => s
  | .maskLoad _ _ => s
  | .cameraSetup _ => s
  | .stationLoad _ _ => s
  | .tileDescriptor _ _ => s
  | .reading _ _ => s
  | .scanStart => { s with scn := { s.scn with startReply := none } }
  | .scanStop => s.dropStop ⟨p, tag⟩
  | .tileCells k => s.abortLoad k
  | .tileRetire k => { s with clr := s.clr.mapSlot k (fun t => { t with owner := none }) }
  | .linesRead => s.stopRead p

/-- The tag numbered by TAG ABORT's operand, from 0 to 3. -/
def tagOf (target : Byte) : Option Tag := if h : target.toNat < 4 then some ⟨target.toNat, h⟩ else none

/-- The command on a tag, if any, ends CHECK ABORTED with its owner undoing it (R175). -/
def State.abortTag (s : State) (p : PortId) (tag : Tag) : State :=
  match s.job p tag with
  | none => s
  | some j => (s.undo p tag j).finishCheck p tag .aborted 0 none

/-- TAG ABORT's own rule (R175). -/
def State.takeTagAbort (s : State) (p : PortId) (tag : Tag) (target : Byte) : State :=
  match tagOf target with
  | none => s.refuse p tag .arg 0 (some 1)
  | some t => ((s.abortTag p t).answer p tag .done).settle

/-! ### Port reset (R176) -/

/-- Step 1 of R176 for one tag: the owner undoes the command and the tag becomes idle, without a reply. -/
def State.dropTag (p : PortId) (s : State) (tag : Tag) : State :=
  match s.job p tag with
  | none => s
  | some j => (s.undo p tag j).modPort p (fun q => { q with tags := q.tags.set tag none })

/-- Step 2 of R176: the frames of unfinished commands leave the queue, but for the one at its head, which is being sent
(log 11). What stays belongs to no command in flight. -/
def cutQueue : List OutFrame → List OutFrame
  | [] => []
  | f :: rest => { f with finished := true } :: rest.filter (fun f => f.finished)

/-- Steps 2 and 4 of R176 at the port itself. -/
def Port.cleared (q : Port) : Port := { q with outgoing := cutQueue q.outgoing, sense := clearSense }

/-- A port reset (R176, R189), with no frame sent. -/
def State.portReset (s : State) (p : PortId) : State :=
  ((((allTags.foldl (State.dropTag p) s).modPort p Port.cleared).closeStream p false).modAtn p (fun _ => atnPowerOn))

/-! ### Client links (R166) -/

def State.clientUp (s : State) (p : PortId) : State :=
  match (s.port p).link with
  | .up => s
  | .down => s.modPort p (fun q => { q with link := .up })

/-- The port at a link loss: counted, its queue emptied, its link DOWN. -/
def Port.lose (q : Port) : Port :=
  { q with
    link := .down
    outgoing := []
    counters := { q.counters with linkLosses := bump q.counters.linkLosses 1 } }

/-- A client link is lost (R166); the freed reader and slots may let other work begin. -/
def State.clientLoss (s : State) (p : PortId) : State :=
  match (s.port p).link with
  | .down => s
  | .up => ((s.modPort p Port.lose).portReset p).settle

/-! ### Frames that arrive (R167, R171) -/

def Port.countBad (q : Port) : Port :=
  { q with counters := { q.counters with badFrames := bump q.counters.badFrames 1 } }

def Port.countStray (q : Port) : Port :=
  { q with counters := { q.counters with strayDataFrames := bump q.counters.strayDataFrames 1 } }

/-- A gathering command takes a payload: it goes on gathering, or its last byte has arrived. -/
def State.gather (s : State) (p : PortId) (tag : Tag) (need : Nat) (bytes : List Byte) (mk : List Byte → Job)
    (complete : State → List Byte → State) : State :=
  if bytes.length < need then s.hold p tag (mk bytes) else complete s (bytes.take need)

/-- A descriptor goes on gathering, or all its bytes have arrived; the bytes after it are cell data (R122). -/
def State.gatherDescriptor (s : State) (p : PortId) (tag : Tag) (ops : TileOperands) (bytes : List Byte) : State :=
  if bytes.length < descriptorSize then s.hold p tag (.tileDescriptor ops bytes)
  else s.completeDescriptor p tag ops bytes

def calibrationSize : Nat := 512
def scanBlockSize : Nat := 64
def cameraBlockSize : Nat := 32

def State.stray (s : State) (p : PortId) : State := s.modPort p Port.countStray

/-- Cell bytes arrive for slot `k` while the load still needs some; after the last the frame is stray (R171). -/
def State.cellFrame (s : State) (p : PortId) (k : Nat) (payload : List Byte) : State :=
  match s.clr.slot k with
  | none => s.stray p
  | some t => if t.received < t.cellBytes then s.takeCells k payload else s.stray p

/-- A DATA-OUT payload is handed to the gathering command on its tag, or the frame is stray (R171). -/
def State.takeData (s : State) (p : PortId) (tag : Tag) (payload : List Byte) : State :=
  match s.job p tag with
  | none => s.stray p
  | some j =>
    match j with
    | .mirrorCalibrate b =>
      s.gather p tag calibrationSize (b ++ payload) .mirrorCalibrate (fun s x => s.completeMirrorCalibrate p tag x)
    | .scanSetup b =>
      s.gather p tag scanBlockSize (b ++ payload) .scanSetup (fun s x => s.completeScanSetup p tag x)
    | .maskLoad n b =>
      s.gather p tag (n * maskEntrySize) (b ++ payload) (.maskLoad n) (fun s x => s.completeMaskLoad p tag n x)
    | .cameraSetup b =>
      s.gather p tag cameraBlockSize (b ++ payload) .cameraSetup (fun s x => s.completeCameraSetup p tag x)
    | .stationLoad n b =>
      s.gather p tag (n * stationSize) (b ++ payload) (.stationLoad n) (fun s x => s.completeStationLoad p tag n x)
    | .tileDescriptor ops b => s.gatherDescriptor p tag ops (b ++ payload)
    | .tileCells k => s.cellFrame p k payload
    | .scanStart => s.stray p
    | .scanStop => s.stray p
    | .tileRetire _ => s.stray p
    | .linesRead => s.stray p
    | .reading _ _ => s.stray p

/-- A DATA-OUT frame arrives; one with no payload byte or more than 1,024 is a bad frame (R167). -/
def State.dataFrame (s : State) (p : PortId) (tag : Tag) (payload : List Byte) : State :=
  match (s.port p).link with
  | .down => s
  | .up =>
    if payload.length = 0 ∨ maxPayload < payload.length then s.modPort p Port.countBad
    else (s.takeData p tag payload).settle

def State.badFrame (s : State) (p : PortId) : State :=
  match (s.port p).link with
  | .down => s
  | .up => s.modPort p Port.countBad

/-! ### The transmitter (R172) -/

/-- The oldest frame has been sent; producers that waited for the link hand their next frames (log 10). -/
def State.frameSent (s : State) (p : PortId) : State :=
  match (s.port p).outgoing with
  | [] => s
  | _ :: rest =>
    (allTags.foldl (fun s t => s.pump p t) (s.modPort p (fun q => { q with outgoing := rest }))).settle

/-! ### SENSE READ and IDENTIFY (R174, R178) -/

def State.takeSenseRead (s : State) (p : PortId) (tag : Tag) : State :=
  s.deliver p tag 0x04 [(s.port p).sense.bytes]

def partCode : Nat := 8274
def dramMiB : Nat := 2048

/-- The IDENTIFY record (11.5). -/
def State.identity (s : State) (p : PortId) : List Byte :=
  leBytes 2 partCode ++ [Config.siliconRevision] ++ leBytes 1 p.val
    ++ s.prt.toList.flatMap (fun q => leBytes 1 q.role.code) ++ leBytes 2 dramMiB
    ++ [slotCount, logCapacity, maxMaskEntries, maxStations, tableCapacity, colourQueueCapacity,
        backfillCapacity].flatMap (leBytes 1) ++ zeros 3

def State.takeIdentify (s : State) (p : PortId) (tag : Tag) : State := s.deliver p tag 0x01 [s.identity p]

/-! ### Meanings -/

def execClientLinkUp (dt : Nat) (p : PortId) (s : State) : Host.Outcome State Fault Refusal :=
  .next ((s.elapse dt).clientUp p)

def execClientLinkLoss (dt : Nat) (p : PortId) (s : State) : Host.Outcome State Fault Refusal :=
  .next ((s.elapse dt).clientLoss p)

def execBadFrame (dt : Nat) (p : PortId) (s : State) : Host.Outcome State Fault Refusal :=
  .next ((s.elapse dt).badFrame p)

def execDataOut (dt : Nat) (p : PortId) (tag : Tag) (payload : List Byte) (s : State) :
    Host.Outcome State Fault Refusal :=
  .next ((s.elapse dt).dataFrame p tag payload)

def execFrameTransmitted (dt : Nat) (p : PortId) (s : State) : Host.Outcome State Fault Refusal :=
  .next ((s.elapse dt).frameSent p)

/-- UNKNOWN_COMMAND: step 3 of R169, after the sense and tag steps. -/
def execUnknownCommand (dt : Nat) (p : PortId) (tag : Tag) (code : Byte) (s : State) :
    Host.Outcome State Fault Refusal :=
  .next (client p tag everyRole (fun s => s.refuse p tag .arg 0 (some code.toNat)) (s.elapse dt))

def execIdentify (dt : Nat) (p : PortId) (tag : Tag) (s : State) : Host.Outcome State Fault Refusal :=
  .next (client p tag everyRole (fun s => s.takeIdentify p tag) (s.elapse dt))

def execSenseRead (dt : Nat) (p : PortId) (tag : Tag) (s : State) : Host.Outcome State Fault Refusal :=
  .next (clientKeepSense p tag (fun s => s.takeSenseRead p tag) (s.elapse dt))

def execTagAbort (dt : Nat) (p : PortId) (tag : Tag) (target : Byte) (s : State) : Host.Outcome State Fault Refusal :=
  .next (clientSkipTag p (fun s => s.takeTagAbort p tag target) (s.elapse dt))

/-- PORT RESET's own rule (R176): the reset, then DONE. -/
def execPortReset (dt : Nat) (p : PortId) (tag : Tag) (s : State) : Host.Outcome State Fault Refusal :=
  .next (clientSkipTag p (fun s => ((s.portReset p).answer p tag .done).settle) (s.elapse dt))

end Sys2Proof.Machine
end

