-- ==== Sys2Proof/Machine/Status.lean ====
section
/-! DEFINITION. STATUS READ and COUNTERS READ (R179, R180, R194). Codes that 11.5 does not give are positions in the list
where the chapter first names them (log 13). -/

namespace Sys2Proof.Machine

/-! ### COUNTERS READ (R180, R194) -/

def AngCounters.list (c : AngCounters) : List Nat :=
  [c.mirrorQuadratureErrors, c.azimuthQuadratureErrors, c.mirrorIndexFaults, c.azimuthIndexFaults,
   c.mirrorBandLosses, c.extrapolatedAngles, c.staleAngles]

def EcaCounters.list (c : EcaCounters) : List Nat :=
  [c.emitFaults, c.pulseGaps, c.idBreaks, c.orphanEchoes, c.outOfWindowEchoes, c.qualityDrops, c.orderFaults,
   c.echoOverflows, c.noReturnDrops, c.pulsesDiscarded, c.rangingFaultRecords, c.rangingLinkLosses]

def LnbCounters.list (c : LnbCounters) : List Nat :=
  [c.maskDrops, c.closedRevolutionDrops, c.fifoDrops, c.unnumberedPoints]

def RngCounters.list (c : RngCounters) : List Nat :=
  [c.linesLost, c.abandonedPoints, c.streamOverruns, c.closeWaits]

def ExsCounters.list (c : ExsCounters) : List Nat :=
  [c.skippedTriggers, c.spontaneousStrobes, c.missedExposures, c.expiredExposures]

def ClrCounters.list (c : ClrCounters) : List Nat := [c.colourSkippedLines, c.sectorExclusions, c.backfillOverflows]

def StrCounters.list (c : StrCounters) : List Nat := [c.checkEvictions, c.cutDeliveries]

def PrtCounters.list (c : PrtCounters) : List Nat := [c.badFrames, c.strayDataFrames, c.linkLosses]

/-- Every counter in the order of R194: 36 block counters, then three for each port. -/
def State.counters (s : State) : List Nat :=
  s.ang.counters.list ++ s.eca.counters.list ++ s.lnb.counters.list ++ s.rng.counters.list ++ s.exs.counters.list
    ++ s.clr.counters.list ++ s.strCounters.list ++ s.prt.toList.flatMap (fun q => q.counters.list)

def Port.clearCounters (q : Port) : Port := { q with counters := zeroPrtCounters }

/-- Every counter set to 0. -/
def State.clearCounters (s : State) : State :=
  { s with
    ang := { s.ang with counters := zeroAngCounters }
    eca := { s.eca with counters := zeroEcaCounters }
    lnb := { s.lnb with counters := zeroLnbCounters }
    rng := { s.rng with counters := zeroRngCounters }
    exs := { s.exs with counters := zeroExsCounters }
    clr := { s.clr with counters := zeroClrCounters }
    strCounters := zeroStrCounters
    prt := s.prt.map Port.clearCounters }

def State.takeCountersRead (s : State) (p : PortId) (tag : Tag) (clear : Bool) : State :=
  (if clear then s.clearCounters else s).deliver p tag 0x03 (payloadsOf (s.counters.flatMap (leBytes 4)))

/-! ### Codes -/

def LinkState.code : LinkState → Nat
  | .down => 0
  | .up => 1

def BandState.code : BandState → Nat
  | .unknown => 0
  | .inBand => 1
  | .outOfBand => 2

def ScanState.code : ScanState → Nat
  | .idle => 0
  | .armed => 1
  | .running => 2
  | .draining => 3
  | .fault => 4

def ArbiterMode.code : ArbiterMode → Nat
  | .normal => 0
  | .holdOff => 1

def CameraMode.code : CameraMode → Nat
  | .off => 0
  | .stations => 1
  | .periodic => 2

def StreamMode.code : StreamMode → Nat
  | .settled => 0
  | .asis => 1

def ReadState.code : ReadState → Nat
  | .waiting => 0
  | .delivering _ _ _ => 1

def PriorityMode.code : PriorityMode → Nat
  | .fixed => 0
  | .rotate => 1

/-- The command code of a command in flight (11.3). -/
def Job.code : Job → Byte
  | .mirrorCalibrate _ => 0x15
  | .scanSetup _ => 0x10
  | .maskLoad _ _ => 0x16
  | .cameraSetup _ => 0x20
  | .stationLoad _ _ => 0x21
  | .tileDescriptor _ _ => 0x30
  | .tileCells _ => 0x30
  | .scanStart => 0x11
  | .scanStop => 0x12
  | .tileRetire _ => 0x31
  | .linesRead => 0x42
  | .reading code _ => code

/-! ### Sections -/

/-- A section: its 2-byte length, then its bytes. -/
def statusSection (bytes : List Byte) : List Byte := leBytes 2 bytes.length ++ bytes

/-- An item that may be absent: its presence byte, then its bytes, which are 0 when it is absent. -/
def optionalItem {α : Type} (size : Nat) (f : α → List Byte) : Option α → List Byte
  | none => boolByte false ++ zeros size
  | some x => boolByte true ++ f x

/-- A number of `n` bytes that may be absent. -/
def optionalNat (n : Nat) (x : Option Nat) : List Byte := optionalItem n (leBytes n) x

def State.statusTb (s : State) : List Byte := leBytes 8 s.tb.toNat

def State.statusAng (s : State) : List Byte :=
  let g := s.ang
  leBytes 2 g.mirror.count ++ leBytes 2 g.azimuth.count ++ leBytes 4 g.mirror.turn.toNat
    ++ leBytes 4 g.azimuth.turn.toNat ++ boolByte g.mirror.aligned ++ boolByte g.azimuth.aligned
    ++ leBytes 8 g.travel.toNat ++ leBytes 1 g.band.code ++ optionalNat 8 (g.tm.map BitVec.toNat)
    ++ optionalNat 4 (g.suspect.map BitVec.toNat)

/-- The source and its 8-bit code. A link loss has no code (R42) and R194 gives none to send: the code byte is 0, a DESIGN
CHOICE (log 30). -/
def RangingFault.bytes : RangingFault → List Byte
  | .link => leBytes 2 0
  | .record code => leBytes 1 1 ++ [code]

def State.statusEca (s : State) : List Byte :=
  let e := s.eca
  leBytes 1 e.link.code ++ leBytes 1 e.history.length ++ leBytes 1 (e.history.countP PulseRec.isOpen)
    ++ optionalItem 10 (fun (q : PrevEmit) => leBytes 2 q.id.toNat ++ leBytes 8 q.time.toNat) e.prevEmit
    ++ optionalItem 2 RangingFault.bytes e.lastFault

/-- SCN's section. The rangefinder's code, which only RANGING RECORD holds (R43), follows every cause under the cause's one
presence byte and is 0 for the others: a DESIGN CHOICE (log 30). -/
def State.statusScn (s : State) : List Byte :=
  let x := s.scn
  leBytes 1 x.state.code
    ++ optionalItem 2 (fun (c : FaultCause) => leBytes 1 c.code ++ leBytes 1 (c.info.getD 0)) x.cause
    ++ leBytes 2 x.session.toNat ++ optionalNat 3 (x.startAz.map BitVec.toNat) ++ leBytes 1 x.inBand ++ boolByte x.laser

def State.statusLnb (s : State) : List Byte :=
  let l := s.lnb
  optionalItem 10 (fun (h : LineHeader) => leBytes 4 h.lineNumber ++ leBytes 4 h.revolution.toNat ++ leBytes 2 h.accepted)
      l.openLine
    ++ leBytes 4 l.lineCounter ++ optionalNat 4 (l.spent.map BitVec.toNat) ++ leBytes 2 (fifoPoints l.fifo)
    ++ leBytes 1 l.mask.length

/-- The oldest and newest committed line numbers, absent for an empty list. -/
def Rng.ends (r : Rng) : Option (Nat × Nat) :=
  match r.oldest, r.newest with
  | some a, some b => some (a, b)
  | _, _ => none

def State.statusRng (s : State) : List Byte :=
  let r := s.rng
  leBytes 4 (ringBytes s.scn.params) ++ leBytes 4 r.occupancy ++ leBytes 4 r.committed.length
    ++ optionalItem 8 (fun (x : Nat × Nat) => leBytes 4 x.1 ++ leBytes 4 x.2) r.ends
    ++ leBytes 1 r.closed.length ++ leBytes 1 (r.closed.countP (fun l => decide (l.state = .colouring)))
    ++ optionalItem 8 (fun (o : RingOpen) => leBytes 4 o.number ++ leBytes 4 o.size) r.openLine
    ++ leBytes 4 r.lostCount ++ leBytes 1 r.mode.code

def Exs.countState (x : Exs) (st : ExposureState) : Nat := x.log.countP (fun e => decide (e.state = st))

def State.statusExs (s : State) : List Byte :=
  let x := s.exs
  leBytes 1 x.setup.mode.code ++ leBytes 1 x.stations.length ++ leBytes 1 x.nextStation ++ leBytes 4 x.periodic
    ++ leBytes 4 x.idCounter ++ leBytes 1 x.log.length ++ leBytes 1 (x.countState .triggered)
    ++ leBytes 1 (x.countState .exposed) ++ leBytes 1 (x.countState .loading)

/-- The work in hand with its exposure id. The sweep has none: 4 zero bytes stand for it, under the item's one presence byte,
a DESIGN CHOICE (log 30). -/
def Work.bytes (w : Work) : List Byte :=
  match w.kind with
  | .task e => leBytes 1 0 ++ leBytes 4 e
  | .sweep => leBytes 1 1 ++ zeros 4

def Clr.countState (c : Clr) (st : SlotState) : Nat := c.slots.countP (fun t => decide (t.state = st))

def State.statusClr (s : State) : List Byte :=
  let c := s.clr
  leBytes 1 (slotCount - c.slots.length) ++ leBytes 1 (c.countState .loading) ++ leBytes 1 (c.countState .valid)
    ++ leBytes 1 (c.countState .retiring) ++ leBytes 1 c.colourQueue.length ++ optionalItem 5 Work.bytes c.work
    ++ leBytes 1 c.backfillQueue.length ++ boolByte c.sweepMark ++ leBytes 4 c.pendingList.length
    ++ optionalNat 4 c.pendingList.head?

def Stream.statusBytes (st : Stream) : List Byte :=
  boolByte st.isOpen ++ leBytes 1 st.mode.code ++ leBytes 4 st.readPoint ++ leBytes 4 st.releasePoint
    ++ boolByte st.essential
    ++ optionalItem 3 (fun (r : LinesRead) => leBytes 1 r.tag.val ++ leBytes 1 r.state.code ++ leBytes 1 r.remaining) st.read
    ++ leBytes 1 (st.table.countP (fun e => !e.isChanged)) ++ leBytes 1 (st.table.countP CheckEntry.isChanged)
    ++ optionalNat 4 st.unsure

def jobCode (j : Option Job) : Byte := (j.map Job.code).getD 0

def Port.statusBytes (q : Port) : List Byte :=
  leBytes 1 q.link.code ++ leBytes 1 q.role.code ++ (q.tags.map jobCode).toList

def Atn.statusBytes (a : Atn) : List Byte :=
  boolByte a.line ++ leBytes 2 a.enable.toNat ++ leBytes 2 a.pending.toNat ++ leBytes 2 a.double.toNat
    ++ leBytes 2 a.held.toNat ++ leBytes 1 a.mode.code ++ leBytes 1 a.first.val ++ boolByte a.frozen

/-- The three sections of one port. -/
def State.portSections (s : State) (p : PortId) : List Byte :=
  statusSection (s.stream p).statusBytes ++ statusSection (s.port p).statusBytes ++ statusSection (s.atn.get p).statusBytes

/-- The whole status, from one state (R179). -/
def State.status (s : State) : List Byte :=
  statusSection s.statusTb ++ statusSection s.statusAng ++ statusSection s.statusEca ++ statusSection s.statusScn ++ statusSection s.statusLnb
    ++ statusSection s.statusRng ++ statusSection s.statusExs ++ statusSection s.statusClr ++ allPorts.flatMap s.portSections

/-- The command code of STATUS READ. -/
def statusReadCode : Byte := 0x02

/-- STATUS READ's own rule. Its own tag is in flight while it is taken (log 14). -/
def State.takeStatusRead (s : State) (p : PortId) (tag : Tag) : State :=
  s.deliver p tag statusReadCode (payloadsOf (s.hold p tag (.reading statusReadCode [])).status)

/-! ### Meanings -/

def execStatusRead (dt : Nat) (p : PortId) (tag : Tag) (s : State) : Host.Outcome State Fault Refusal :=
  .next (client p tag everyRole (fun s => s.takeStatusRead p tag) (s.elapse dt))

def execCountersRead (dt : Nat) (p : PortId) (tag : Tag) (clear : Bool) (s : State) : Host.Outcome State Fault Refusal :=
  .next (client p tag everyRole (fun s => s.takeCountersRead p tag clear) (s.elapse dt))

end Sys2Proof.Machine
end

