-- ==== Sys2Proof/Machine/Resets.lean ====
section
/-! DEFINITION. POWER_ON, TB_WRAP and RESTART (R1, R59, R60, R177, R188). -/

namespace Sys2Proof.Machine

/-! ### RESTART -/

/-- The command on a tag, if any, ends CHECK ABORTED; its owner's block is restarted whole. -/
def State.restartTag (p : PortId) (s : State) (tag : Tag) : State :=
  match s.job p tag with
  | none => s
  | some _ => s.finishCheck p tag .aborted 0 none

/-- Every command in flight on one port ends, in ascending tag (R177). -/
def State.restartPort (s : State) (p : PortId) : State := allTags.foldl (State.restartTag p) s

/-- A stream at RESTART: closed, without a further reply. -/
def Stream.restart (st : Stream) : Stream := if st.isOpen then st.closed else st

/-- Every block's part of RESTART and the clearing of every counter (R59). -/
def State.restartBlocks (s : State) : State :=
  ({ s with
    ang := s.ang.restart s.scn.params s.tb
    eca := s.eca.restart
    scn := s.scn.restart
    lnb := s.lnb.restart
    rng := rngRestart
    exs := s.exs.restart
    clr := s.clr.restart
    str := s.str.map Stream.restart
    atn := s.atn.map Atn.restart }).clearCounters

/-- RESTART's own rule: commands end, blocks and attention are cleared, STATE is raised, DONE. -/
def State.takeRestart (s : State) (p : PortId) (tag : Tag) : State :=
  (((allPorts.foldl State.restartPort s).restartBlocks).raiseAll evState).answer p tag .done

/-! ### Meanings -/

/-- POWER_ON: every block in its power-on state, with the roles of the straps (R60, R168). -/
def execPowerOn (straps : Quad (BitVec 2)) (s : State) : Host.Outcome State Fault Refusal :=
  .next (powerOnState (straps.map roleOfStraps) s.pending)

def execTbWrap (s : State) : Host.Outcome State Fault Refusal :=
  .next s.wrap

def execRestart (dt : Nat) (p : PortId) (tag : Tag) (s : State) : Host.Outcome State Fault Refusal :=
  .next (client p tag onlyControl (fun s => s.takeRestart p tag) (s.elapse dt))

end Sys2Proof.Machine
end

