-- ==== Sys2Proof/Machine/Frames.lean ====
section
/-! DEFINITION. The bytes of the frames the part sends (11.2, R190, R191). -/

namespace Sys2Proof.Machine

/-- The status codes of 11.2. -/
def Status.code : Status → Nat
  | .done => 0
  | .accepted => 1
  | .check => 2
  | .busy => 3
  | .isMatch => 4

/-- The sense class and code of a REPLY, zero but for CHECK. -/
def replyPayload (st : Status) (cls : SenseClass) (code : Nat) : List Byte :=
  match st with
  | .check => leBytes 1 st.code ++ leBytes 1 cls.code ++ leBytes 1 code ++ zeros 1
  | .done => leBytes 1 st.code ++ zeros 3
  | .accepted => leBytes 1 st.code ++ zeros 3
  | .busy => leBytes 1 st.code ++ zeros 3
  | .isMatch => leBytes 1 st.code ++ zeros 3

def FrameBody.payload : FrameBody → List Byte
  | .reply st cls code => replyPayload st cls code
  | .dataIn payload => payload

def FrameBody.kind : FrameBody → Nat
  | .reply _ _ _ => 3
  | .dataIn _ => 4

/-- The header and payload of a frame. -/
def OutFrame.unsealed (f : OutFrame) : List Byte :=
  leBytes 1 f.body.kind ++ leBytes 1 f.tag.val ++ leBytes 2 f.body.payload.length ++ f.body.payload

/-- A whole frame, with its CRC. -/
def OutFrame.bytes (f : OutFrame) : List Byte := f.unsealed ++ leBytes 2 (crc16 f.unsealed).toNat

end Sys2Proof.Machine
end

