-- ==== Sys2Proof/Machine/Dispatch.lean ====
section
/-! DEFINITION. exec: one arm per command, each one call of its meaning. -/

namespace Sys2Proof.Machine

def exec (i : Instr) (s : State) : Host.Outcome State Fault Refusal :=
  match i with
  | .powerOn straps => Sys2Proof.Machine.execPowerOn straps s
  | .tbWrap => Sys2Proof.Machine.execTbWrap s
  | .quadratureEdge dt axis kind indexActive => Sys2Proof.Machine.execQuadratureEdge dt axis kind indexActive s
  | .indexInactive dt axis => Sys2Proof.Machine.execIndexInactive dt axis s
  | .stallTimerExpiry dt => Sys2Proof.Machine.execStallTimerExpiry dt s
  | .rangingLinkUp dt => Sys2Proof.Machine.execRangingLinkUp dt s
  | .rangingLinkLoss dt => Sys2Proof.Machine.execRangingLinkLoss dt s
  | .emit dt id time => Sys2Proof.Machine.execEmit dt id time s
  | .echo dt reference delay amplitude width saturated => Sys2Proof.Machine.execEcho dt reference delay amplitude width saturated s
  | .faultRecord dt code => Sys2Proof.Machine.execFaultRecord dt code s
  | .armedTimerExpiry dt => Sys2Proof.Machine.execArmedTimerExpiry dt s
  | .drainTimerExpiry dt => Sys2Proof.Machine.execDrainTimerExpiry dt s
  | .abandonmentReport dt => Sys2Proof.Machine.execAbandonmentReport dt s
  | .dramTransferEnd dt work => Sys2Proof.Machine.execDramTransferEnd dt work s
  | .firstPassEnd dt => Sys2Proof.Machine.execFirstPassEnd dt s
  | .backfillStepEnd dt => Sys2Proof.Machine.execBackfillStepEnd dt s
  | .strobeRise dt => Sys2Proof.Machine.execStrobeRise dt s
  | .strobeFall dt => Sys2Proof.Machine.execStrobeFall dt s
  | .strobeTimeoutExpiry dt => Sys2Proof.Machine.execStrobeTimeoutExpiry dt s
  | .tileDeadlineExpiry dt exposure => Sys2Proof.Machine.execTileDeadlineExpiry dt exposure s
  | .tileLoadComplete dt => Sys2Proof.Machine.execTileLoadComplete dt s
  | .lineDeliveryComplete dt p => Sys2Proof.Machine.execLineDeliveryComplete dt p s
  | .clientLinkUp dt p => Sys2Proof.Machine.execClientLinkUp dt p s
  | .clientLinkLoss dt p => Sys2Proof.Machine.execClientLinkLoss dt p s
  | .badFrame dt p => Sys2Proof.Machine.execBadFrame dt p s
  | .dataOut dt p tag payload => Sys2Proof.Machine.execDataOut dt p tag payload s
  | .frameTransmitted dt p => Sys2Proof.Machine.execFrameTransmitted dt p s
  | .unknownCommand dt p tag code => Sys2Proof.Machine.execUnknownCommand dt p tag code s
  | .identify dt p tag => Sys2Proof.Machine.execIdentify dt p tag s
  | .statusRead dt p tag => Sys2Proof.Machine.execStatusRead dt p tag s
  | .countersRead dt p tag clear => Sys2Proof.Machine.execCountersRead dt p tag clear s
  | .senseRead dt p tag => Sys2Proof.Machine.execSenseRead dt p tag s
  | .tagAbort dt p tag target => Sys2Proof.Machine.execTagAbort dt p tag target s
  | .portReset dt p tag => Sys2Proof.Machine.execPortReset dt p tag s
  | .eventSetup dt p tag enable mode first => Sys2Proof.Machine.execEventSetup dt p tag enable mode first s
  | .eventNext dt p tag => Sys2Proof.Machine.execEventNext dt p tag s
  | .eventFreeze dt p tag onOff => Sys2Proof.Machine.execEventFreeze dt p tag onOff s
  | .scanSetup dt p tag => Sys2Proof.Machine.execScanSetup dt p tag s
  | .scanStart dt p tag => Sys2Proof.Machine.execScanStart dt p tag s
  | .scanStop dt p tag => Sys2Proof.Machine.execScanStop dt p tag s
  | .faultClear dt p tag => Sys2Proof.Machine.execFaultClear dt p tag s
  | .restart dt p tag => Sys2Proof.Machine.execRestart dt p tag s
  | .mirrorCalibrate dt p tag => Sys2Proof.Machine.execMirrorCalibrate dt p tag s
  | .maskLoad dt p tag empty count => Sys2Proof.Machine.execMaskLoad dt p tag empty count s
  | .cameraSetup dt p tag => Sys2Proof.Machine.execCameraSetup dt p tag s
  | .stationLoad dt p tag empty count => Sys2Proof.Machine.execStationLoad dt p tag empty count s
  | .exposuresRead dt p tag after count => Sys2Proof.Machine.execExposuresRead dt p tag after count s
  | .exposureDrop dt p tag exposure => Sys2Proof.Machine.execExposureDrop dt p tag exposure s
  | .tileLoad dt p tag exposure priority w h => Sys2Proof.Machine.execTileLoad dt p tag exposure priority w h s
  | .tileRetire dt p tag slot exposure => Sys2Proof.Machine.execTileRetire dt p tag slot exposure s
  | .tilesList dt p tag => Sys2Proof.Machine.execTilesList dt p tag s
  | .streamOpen dt p tag mode start startLine => Sys2Proof.Machine.execStreamOpen dt p tag mode start startLine s
  | .streamClose dt p tag => Sys2Proof.Machine.execStreamClose dt p tag s
  | .linesRead dt p tag count => Sys2Proof.Machine.execLinesRead dt p tag count s
  | .linesRelease dt p tag n => Sys2Proof.Machine.execLinesRelease dt p tag n s
  | .linesCheck dt p tag => Sys2Proof.Machine.execLinesCheck dt p tag s
  | .lineFind dt p tag startLine criterion azimuth mask value invert => Sys2Proof.Machine.execLineFind dt p tag startLine criterion azimuth mask value invert s

end Sys2Proof.Machine
end

