-- ==== Sys2Proof/Machine/Step.lean ====
section
/-! DEFINITION. The step: the command at the front of the queue; with none waiting, 1 ft passes (log 2). -/

namespace Sys2Proof.Machine

/-- One step. -/
def step (s : State) : Host.Outcome State Fault Refusal :=
  match s.pending with
  | [] => .next (s.elapse 1)
  | c :: rest => exec c { s with pending := rest }

/-- The command a word spells, put at the front of the queue. -/
def State.withFetchWord (s : State) (nbits w : Nat) : State :=
  match decodeTableWord nbits w with
  | none => s
  | some c => { s with pending := c :: s.pending }

end Sys2Proof.Machine
end

