-- ==== Sys2Proof/Safety.lean ====
section
/-! DEFINITION. The words the statements are written in: what a taken command does to its port, and the invariants of the
machine. -/

namespace Sys2Proof

/-- The port and tag of a COMMAND frame that takes the tag test of R169. -/
def Instr.tagged : Instr → Option (PortId × Tag)
  | .unknownCommand _ p tag _ => some (p, tag)
  | .identify _ p tag => some (p, tag)
  | .statusRead _ p tag => some (p, tag)
  | .countersRead _ p tag _ => some (p, tag)
  | .eventSetup _ p tag _ _ _ => some (p, tag)
  | .eventNext _ p tag => some (p, tag)
  | .eventFreeze _ p tag _ => some (p, tag)
  | .scanSetup _ p tag => some (p, tag)
  | .scanStart _ p tag => some (p, tag)
  | .scanStop _ p tag => some (p, tag)
  | .faultClear _ p tag => some (p, tag)
  | .restart _ p tag => some (p, tag)
  | .mirrorCalibrate _ p tag => some (p, tag)
  | .maskLoad _ p tag _ _ => some (p, tag)
  | .cameraSetup _ p tag => some (p, tag)
  | .stationLoad _ p tag _ _ => some (p, tag)
  | .exposuresRead _ p tag _ _ => some (p, tag)
  | .exposureDrop _ p tag _ => some (p, tag)
  | .tileLoad _ p tag _ _ _ _ => some (p, tag)
  | .tileRetire _ p tag _ _ => some (p, tag)
  | .tilesList _ p tag => some (p, tag)
  | .streamOpen _ p tag _ _ _ => some (p, tag)
  | .streamClose _ p tag => some (p, tag)
  | .linesRead _ p tag _ => some (p, tag)
  | .linesRelease _ p tag _ => some (p, tag)
  | .linesCheck _ p tag => some (p, tag)
  | .lineFind _ p tag _ _ _ _ _ _ => some (p, tag)
  | _ => none

/-- The roles a command is allowed to, from the table of R168. -/
def Instr.allowed : Instr → Machine.Role → Bool
  | .scanSetup _ _ _, r => decide (r = .control)
  | .scanStart _ _ _, r => decide (r = .control)
  | .scanStop _ _ _, r => decide (r = .control)
  | .faultClear _ _ _, r => decide (r = .control)
  | .restart _ _ _, r => decide (r = .control)
  | .mirrorCalibrate _ _ _, r => decide (r = .control)
  | .maskLoad _ _ _ _ _, r => decide (r = .control)
  | .cameraSetup _ _ _, r => decide (r = .control) || decide (r = .imaging)
  | .stationLoad _ _ _ _ _, r => decide (r = .imaging)
  | .tileLoad _ _ _ _ _ _ _, r => decide (r = .imaging)
  | .tileRetire _ _ _ _ _, r => decide (r = .imaging)
  | .exposureDrop _ _ _ _, r => decide (r = .imaging)
  | _, _ => true

end Sys2Proof

namespace Sys2Proof.Machine

/-! ### What a command frame does to its port -/

/-- A COMMAND frame with this tag is taken past steps 1 to 3 of R169: the link is UP and the tag is idle. -/
abbrev State.ready (s : State) (p : PortId) (tag : Tag) : Prop :=
  (s.port p).link = .up ∧ (s.port p).tags.get tag = none

/-- The port's role is CONTROL. -/
abbrev State.isControl (s : State) (p : PortId) : Prop := (s.port p).role = .control

/-- The port's role is IMAGING. -/
abbrev State.isImaging (s : State) (p : PortId) : Prop := (s.port p).role = .imaging

/-- A REPLY without a sense class that ends its command (R170). -/
def replyFrame (tag : Tag) (st : Status) : OutFrame := ⟨tag, .reply st .none 0, true⟩

/-- An ACCEPTED reply: its command stays in flight. -/
def acceptedFrame (tag : Tag) : OutFrame := ⟨tag, .reply .accepted .none 0, false⟩

/-- A CHECK reply. -/
def checkFrame (tag : Tag) (cls : SenseClass) (code : Nat) : OutFrame := ⟨tag, .reply .check cls code, true⟩

/-- A DATA-IN frame whose command ends with it. -/
def dataInFrame (tag : Tag) (payload : List Byte) : OutFrame := ⟨tag, .dataIn payload, true⟩

/-- The sense record a refusal leaves (R173). -/
def senseOf (tag : Tag) (cls : SenseClass) (code : Nat) (info : Option Nat) : Sense :=
  ⟨cls, code, info.getD 0, info.isSome, tag⟩

/-- The state with port `p` replaced and nothing else changed. -/
def State.withPort (s : State) (p : PortId) (q : Port) : State := { s with prt := s.prt.set p q }

/-- The port after a command that cleared its sense record and handed these frames. -/
def Port.sent (q : Port) (fs : List OutFrame) : Port := { q with sense := clearSense, outgoing := q.outgoing ++ fs }

/-- The command is answered in the step in which it is taken. -/
def State.replied (s : State) (p : PortId) (tag : Tag) (st : Status) : State :=
  s.withPort p ((s.port p).sent [replyFrame tag st])

/-- The command is refused in the step in which it is taken. -/
def State.refused (s : State) (p : PortId) (tag : Tag) (cls : SenseClass) (info : Option Nat) : State :=
  s.withPort p { (s.port p).sent [checkFrame tag cls 0] with sense := senseOf tag cls 0 info }

/-- The command takes its tag, after handing these frames. -/
def State.held (s : State) (p : PortId) (tag : Tag) (j : Job) (fs : List OutFrame) : State :=
  s.withPort p { (s.port p).sent fs with tags := (s.port p).tags.set tag (some j) }

/-- The port after an immediate read command with these payloads has handed its first frame, or its DONE when there is
none (R172): a command whose last payload is handed ends with DONE, another keeps its tag. -/
def Port.reading (q : Port) (tag : Tag) (code : Byte) : List (List Byte) → Port
  | [] => { q.idleTag tag with outgoing := (q.idleTag tag).outgoing ++ [replyFrame tag .done] }
  | [d] => { q.idleTag tag with outgoing := (q.idleTag tag).outgoing ++ [dataInFrame tag d, replyFrame tag .done] }
  | d :: d' :: rest =>
    { q with
      tags := q.tags.set tag (some (.reading code (d' :: rest)))
      outgoing := q.outgoing ++ [⟨tag, .dataIn d, false⟩] }

/-- An immediate read command with these payloads, whose sense record was cleared. -/
def State.readOut (s : State) (p : PortId) (tag : Tag) (code : Byte) (payloads : List (List Byte)) : State :=
  s.withPort p (Port.reading { s.port p with sense := Sys2Proof.Machine.clearSense } tag code payloads)

/-- Everything but the blocks the ring's end of a step works on is as in `s`: the timebase, ANG, ECA, SCN and the
commands waiting. -/
structure SameScan (s t : State) : Prop where
  tb : t.tb = s.tb
  ang : t.ang = s.ang
  eca : t.eca = s.eca
  scn : t.scn = s.scn
  pending : t.pending = s.pending

/-- The clients' side is as in `s` but for frames, tags and sense records: links, roles and PRT counters. -/
def SamePorts (s t : State) : Prop :=
  ∀ p, (t.port p).link = (s.port p).link ∧ (t.port p).role = (s.port p).role ∧
    (t.port p).counters = (s.port p).counters

/-- What a port reset of port `p`, or the loss of its link, undoes of the commands in flight on it and of its stream (R176, 9.8,
R156), from `e` to `u`. A pending SCAN START loses its reply and a SCAN STOP its place in the list; the slot of an accepted TILE
LOAD is FREE, its cells are abandoned and its exposure is EXPOSED with the held time running again; the slot of a TILE RETIRE has
no owner; an OPEN stream is CLOSED whole, its two points kept; the reader's and the loader's transfer in progress is no longer
wanted. Nothing else of SCN, RNG, EXS and CLR changes. -/
structure PortEndUndone (p : PortId) (e u : State) : Prop where
  scn : u.scn = { e.scn with startReply := u.scn.startReply, stopReplies := u.scn.stopReplies }
  startDropped : ∀ x, (e.port p).tags.get x = some .scanStart → u.scn.startReply = none
  startKept : (∀ x, (e.port p).tags.get x ≠ some .scanStart) → u.scn.startReply = e.scn.startReply
  stops : u.scn.stopReplies = e.scn.stopReplies.filter
    (fun o => !(decide (o.port = p) && decide ((e.port p).tags.get o.tag = some .scanStop)))
  slots : u.clr.slots =
    (e.clr.slots.filter (fun y => decide (∀ x, (e.port p).tags.get x ≠ some (.tileCells y.slot)))).map
      (fun y => if ∃ x, (e.port p).tags.get x = some (.tileRetire y.slot) then { y with owner := none } else y)
  loader : (∀ x k, (e.port p).tags.get x = some (.tileCells k) → e.clr.slot k ≠ none) →
    u.clr.loader = e.clr.loader.filter (fun c => decide (∀ x, (e.port p).tags.get x ≠ some (.tileCells c.slot)))
  clr : u.clr = { e.clr with slots := u.clr.slots, loader := u.clr.loader }
  exposure : ∀ (x : Tag) (k : Nat) (t : TileSlot) (before after : List Exposure) (r : Exposure) (left : Nat),
    (e.port p).tags.get x = some (.tileCells k) → (∀ y j, (e.port p).tags.get y = some (.tileCells j) → y = x) →
    e.clr.slot k = some t → e.exs.log = before ++ r :: after → (∀ y ∈ before, y.id ≠ r.id) → (∀ y ∈ after, y.id ≠ r.id) →
    r.id = t.exposure → r.held = some left →
    u.exs = { e.exs with log := before ++ { r with
      state := .exposed, slot := none, held := none, deadline := some ⟨e.tb, left⟩ } :: after }
  exposures : (∀ x k, (e.port p).tags.get x ≠ some (.tileCells k)) → u.exs = e.exs
  streamClosed : (e.stream p).isOpen = true → u.stream p =
    { e.stream p with isOpen := false, essential := false, read := none, table := [], unsure := none }
  streamKept : (e.stream p).isOpen = false → (e.stream p).read = none → u.stream p = e.stream p
  rng : u.rng = { e.rng with inProgress := u.rng.inProgress }
  reader : ∀ w, e.rng.inProgress = some ⟨.reader p, w⟩ → (e.stream p).isOpen = true →
    u.rng.inProgress = some ⟨.reader p, false⟩
  loads : ∀ w x k, e.rng.inProgress = some ⟨.tileLoader k, w⟩ → (e.port p).tags.get x = some (.tileCells k) →
    e.clr.slot k ≠ none → u.rng.inProgress = some ⟨.tileLoader k, false⟩
  others : (∀ y, e.rng.inProgress = some y → y.owner ≠ .reader p ∧
    ∀ x k, (e.port p).tags.get x = some (.tileCells k) → y.owner ≠ .tileLoader k) → u.rng.inProgress = e.rng.inProgress

/-- The line a pass or step runs on: the first with its number in the closed-line list for a first pass, in the committed
list for a step (R137, R142). -/
def State.passesOver (s : State) (x : Pass) (l : RingLine) : Prop :=
  l.header.lineNumber = x.line ∧
  (x.kind = .firstPass → ∃ before st after, s.rng.closed = before ++ ⟨l, st⟩ :: after ∧
    ∀ y ∈ before, y.line.header.lineNumber ≠ x.line) ∧
  (x.kind ≠ .firstPass → ∃ before after, s.rng.committed = before ++ l :: after ∧
    ∀ y ∈ before, y.header.lineNumber ≠ x.line)

/-- An event at position `e` has been raised on every port whose link is UP: it is pending there, or held where the port is
frozen (R183). -/
def raisedEverywhere (e : EventPos) (t : State) : Prop :=
  ∀ p, (t.port p).link = .up →
    if (t.atn.get p).frozen then EventSet.has (t.atn.get p).held e = true
    else EventSet.has (t.atn.get p).pending e = true

/-! ### Invariants -/

/-- SCN (R57, R43): LASER PERMIT is asserted exactly in RUNNING, each scan timer runs exactly in its state, and a scan
reply is pending only in the state that waits for it. -/
abbrev ScanInv (s : State) : Prop :=
  s.scn.laser = decide (s.scn.state = .running) ∧
  s.scn.armed.isSome = decide (s.scn.state = .armed) ∧
  s.scn.drain.isSome = decide (s.scn.state = .draining) ∧
  (s.scn.startReply.isSome = true → s.scn.state = .armed) ∧
  (s.scn.stopReplies ≠ [] → s.scn.state = .draining)

/-- One axis of ANG (R3, R8): the count lies within the turn, and the history holds at most 32 records with strictly
ascending times. -/
abbrev AxisInv (n : Nat) (x : AxisState) : Prop :=
  x.count < n ∧ x.history.length ≤ 32 ∧ x.history.Pairwise (fun a b => a.time.toNat < b.time.toNat)

abbrev EncoderInv (s : State) : Prop := AxisInv 16384 s.ang.mirror ∧ AxisInv 65536 s.ang.azimuth

/-- ECA (R22 to R24, R35): at most 16 pulse records, none outside RUNNING and DRAINING or without a previous EMIT. Ids
ascend to the previous EMIT's from a distance of at most 15, times ascend to its time, and each echo list holds at most
four echoes in strictly ascending range. -/
abbrev PulseInv (s : State) : Prop :=
  s.eca.history.length ≤ 16 ∧
  (s.scn.state = .idle ∨ s.scn.state = .armed ∨ s.scn.state = .fault → s.eca.history = []) ∧
  (s.eca.prevEmit = none → s.eca.history = []) ∧
  (∀ q ∈ s.eca.prevEmit,
    s.eca.history.Pairwise
      (fun a b => a.time.toNat < b.time.toNat ∧ (q.id - b.id).toNat < (q.id - a.id).toNat) ∧
    ∀ r ∈ s.eca.history, r.time.toNat ≤ q.time.toNat ∧ (q.id - r.id).toNat < 16) ∧
  (∀ r ∈ s.eca.history, r.echoes.length ≤ 4 ∧ r.echoes.Pairwise (fun x y => x.range.toNat < y.range.toNat))

/-- The ranges of the scan parameters (R44). -/
abbrev ScanRanges (q : ScanParams) : Prop :=
  q.zone ≤ 3 ∧
  (5 ≤ q.nominalMs ∧ q.nominalMs ≤ 100) ∧
  (1 ≤ q.toleranceUs ∧ q.toleranceUs ≤ 10000 ∧ q.nominalMs ≤ 10 * q.toleranceUs ∧ q.toleranceUs ≤ 100 * q.nominalMs) ∧
  (100 ≤ q.stallUs ∧ q.stallUs ≤ 100000) ∧
  (100 ≤ q.armedTimeoutMs ∧ q.armedTimeoutMs ≤ 60000) ∧
  (q.ws < q.we ∧ q.we ≤ 16777215) ∧
  q.mirrorZero ≤ 16777215 ∧
  (6000000 ≤ q.rangeScale ∧ q.rangeScale ≤ 6200000) ∧
  q.rangeOffset ≤ 65535 ∧
  (q.nearLimit ≤ q.farLimit ∧ q.farLimit ≤ 16777215) ∧
  q.weakThreshold ≤ 65535 ∧
  q.azimuthSpan ≤ 4294967295 ∧
  (2 ≤ q.drainUs ∧ q.drainUs ≤ 500) ∧
  (1 ≤ q.defaultColourRange ∧ q.defaultColourRange ≤ 16777215) ∧
  (-2147483648 ≤ q.parallax ∧ q.parallax ≤ 2147483647) ∧
  (1 ≤ q.ringSize ∧ q.ringSize ≤ 24)

/-- The ranges of the camera setup (R102). -/
abbrev CameraRanges (q : CameraSetup) : Prop :=
  (1 ≤ q.interval ∧ q.interval ≤ 65536) ∧
  (-8388608 ≤ q.azOffset ∧ q.azOffset ≤ 8388607) ∧
  (1 ≤ q.halfWidth ∧ q.halfWidth ≤ 4194304) ∧
  (q.mLow < q.mHigh ∧ q.mHigh ≤ 16777215) ∧
  (100 ≤ q.strobeTimeoutUs ∧ q.strobeTimeoutUs ≤ 1000000) ∧
  (1 ≤ q.tileDeadlineS ∧ q.tileDeadlineS ≤ 600)

/-- The ranges of a mask entry (R75). -/
abbrev MaskRanges (e : MaskEntry) : Prop :=
  e.azStart ≤ 16777215 ∧ (1 ≤ e.azWidth ∧ e.azWidth ≤ 16777216) ∧ e.mLow < e.mHigh ∧ e.mHigh ≤ 16777215

/-- The count a gathering load waits for lies within what its command allows (R76, R103). -/
def Job.countInRange : Job → Bool
  | .maskLoad n _ => decide (n ≤ 32)
  | .stationLoad n _ => decide (n ≤ 64)
  | _ => true

/-- What the setup commands leave is always legal: the scan parameters (R44), the camera setup (R102), the mask list (R75),
the station list (R103) with the next station index and the periodic counter (R100), and the size of the calibration table
(R14). -/
abbrev SetupInv (s : State) : Prop :=
  ScanRanges s.scn.params ∧ CameraRanges s.exs.setup ∧
  (s.lnb.mask.length ≤ 32 ∧ (∀ e ∈ s.lnb.mask, MaskRanges e) ∧ s.lnb.mask.Pairwise (fun a b => a.azStart < b.azStart)) ∧
  (s.exs.stations.length ≤ 64 ∧ (∀ v ∈ s.exs.stations, v ≤ 2147483647) ∧ s.exs.stations.Pairwise (· < ·)) ∧
  s.exs.nextStation ≤ s.exs.stations.length ∧
  (1 ≤ s.exs.periodic ∧ s.exs.periodic ≤ s.exs.setup.interval) ∧
  s.ang.calibration.length = 256 ∧
  (∀ p x, ∀ j ∈ (s.port p).tags.get x, j.countInRange = true)

/-- LNB (R62, R68, R69): at most 512 points, room for the close notice of the open line among the 64 notices, fewer than
16,384 accepted points in an open line, and a line number counter of 32 bits. -/
abbrev LineInv (s : State) : Prop :=
  fifoPoints s.lnb.fifo ≤ 512 ∧
  fifoNotices s.lnb.fifo + (if s.lnb.openLine.isSome then 1 else 0) ≤ 64 ∧
  (∀ h ∈ s.lnb.openLine, h.pointCount + h.fifoDropped < 16384) ∧
  s.lnb.lineCounter ≤ 4294967295

/-- RNG (R81, R82): the occupancy never exceeds the ring size, and the closed-line list holds at most 32 lines. -/
abbrev RingInv (s : State) : Prop :=
  s.rng.occupancy ≤ s.scn.params.ringSize * 67108864 ∧ s.rng.closed.length ≤ 32

/-- EXS (R104 to R106): at most 64 records in strictly ascending id, every id issued by the counter, at most one record
TRIGGERED. -/
abbrev ExposureInv (s : State) : Prop :=
  s.exs.log.length ≤ 64 ∧
  (s.exs.log.map Exposure.id).Pairwise (· < ·) ∧
  (∀ e ∈ s.exs.log, 1 ≤ e.id ∧ e.id ≤ s.exs.idCounter) ∧
  s.exs.idCounter ≤ 4294967295 ∧
  s.exs.log.countP (fun e => decide (e.state = .triggered)) ≤ 1

/-- CLR (R120, R129, R135, R140): slots in ascending number below 48, 64 sector lists of at most 8, and the bounds of the
two queues. -/
abbrev TableInv (s : State) : Prop :=
  (s.clr.slots.map TileSlot.slot).Pairwise (· < ·) ∧
  (∀ t ∈ s.clr.slots, t.slot < 48) ∧
  s.clr.sectors.length = 64 ∧
  (∀ l ∈ s.clr.sectors, l.length ≤ 8) ∧
  s.clr.colourQueue.length ≤ 16 ∧
  s.clr.backfillQueue.length ≤ 64

/-- The tile area is in canonical form. -/
abbrev TileAreaInv (s : State) : Prop := Memory.wf s.clr.tileArea

/-- Every counter stops at 4,294,967,295 (R180). -/
abbrev CounterInv (s : State) : Prop := ∀ n ∈ s.counters, n ≤ 4294967295

/-- One ATN (R182, R187): a double position is pending or held, nothing is held while the port is not frozen, and the rank
order lists each of the twelve positions once. -/
abbrev AtnInv (a : Atn) : Prop :=
  a.double &&& ~~~ (a.pending ||| a.held) = 0#12 ∧
  (a.frozen = false → a.held = 0#12) ∧
  a.rank.Perm [0, 1, 2, 3, 4, 5, 6, 7, 8, 9, 10, 11]

abbrev AttentionInv (s : State) : Prop := ∀ p, AtnInv (s.atn.get p)

/-- A port whose link is DOWN begins clean (R166): no frame waits, every tag is idle, the stream is CLOSED and the
attention controller is in its power-on state. -/
abbrev DownPortInv (s : State) : Prop :=
  ∀ p, (s.port p).link = .down →
    (s.port p).outgoing = [] ∧ (s.port p).tags = Quad.all none ∧ (s.stream p).isOpen = false ∧ s.atn.get p = atnPowerOn

/-- The read-check tables (R157): at most 64 entries. -/
abbrev CheckTableInv (s : State) : Prop := ∀ p, (s.stream p).table.length ≤ 64

/-- The number of points PENDING among the records of a line. -/
abbrev countPending (ps : List Point) : Nat := ps.countP (fun p => decide (p.colourState = .pending))

/-- The colour fields a header has until its first pass: SETTLED and 0 (R67, R119). -/
abbrev LineHeader.uncoloured (h : LineHeader) : Prop := h.colour = .settled ∧ h.pendingCount = 0

/-- The colour state agrees with the pending count (R119). -/
abbrev LineHeader.agrees (h : LineHeader) : Prop := h.colour = .settled ↔ h.pendingCount = 0

/-- The finished header a close notice carries. -/
def FifoItem.header : FifoItem → Option LineHeader
  | .openNotice _ => none
  | .point _ _ => none
  | .closeNotice _ h => some h

/-- The first pass in progress. -/
def Clr.firstPassRunning (c : Clr) : Option Pass := c.pass.filter (fun x => !x.kind.isStep)

/-- The back-fill step in progress. -/
def Clr.stepRunning (c : Clr) : Option Pass := c.pass.filter (fun x => x.kind.isStep)

/-- The first pass in progress on line `n`, or one that has done nothing. -/
def Clr.firstPassOn (c : Clr) (n : Nat) : Pass :=
  (c.firstPassRunning.filter (fun x => decide (x.line = n))).getD ⟨n, .firstPass, 0, 0⟩

/-- The points of line `n` that the back-fill step in progress has already taken out of PENDING. -/
def Clr.leftPending (c : Clr) (n : Nat) : Nat :=
  ((c.stepRunning.filter (fun x => decide (x.line = n))).map Pass.tally).getD 0

/-- The line numbers RNG and CLR hold: committed, closed, in the colour queue, in a first pass. -/
def State.ringNumbers (s : State) : List Nat :=
  s.rng.committed.map RingLine.number ++ s.rng.closed.map (fun l => l.line.number) ++ s.clr.colourQueue
    ++ (s.clr.firstPassRunning.map Pass.line).toList

/-- The order of line numbers (R69, R81): ascending over the committed and the closed-line list, above them in the Point
FIFO, where a close notice is the last item of its line, then LNB's open line, and none above the line number counter. -/
abbrev LineOrderInv (s : State) : Prop :=
  (s.rng.committed.map RingLine.number ++ s.rng.closed.map (fun l => l.line.number)).Pairwise (· < ·) ∧
  (∀ n ∈ s.ringNumbers, n ≤ s.lnb.lineCounter ∧ (∀ x ∈ s.lnb.fifo, n < x.line) ∧
    ∀ h ∈ s.lnb.openLine, n < h.lineNumber) ∧
  s.lnb.fifo.Pairwise (fun a b => a.line ≤ b.line ∧ (a.header.isSome = true → a.line < b.line)) ∧
  (∀ x ∈ s.lnb.fifo, x.line ≤ s.lnb.lineCounter) ∧
  (∀ h ∈ s.lnb.openLine, h.lineNumber ≤ s.lnb.lineCounter ∧
    ∀ x ∈ s.lnb.fifo, x.line ≤ h.lineNumber ∧ (x.header.isSome = true → x.line < h.lineNumber))

/-- The pending count of a closed line (R91, R119, R137): while COLOURING, the points its first pass has made PENDING so far,
none of them beyond where the pass stands; once COLOURED the header's own count; none in a SKIPPED line. -/
abbrev ClosedLine.counted (l : ClosedLine) (c : Clr) : Prop :=
  (l.state = .colouring → l.line.header.uncoloured ∧
    countPending l.line.points = (c.firstPassOn l.line.number).tally ∧
    countPending (l.line.points.drop (c.firstPassOn l.line.number).done) = 0) ∧
  (l.state = .coloured → l.line.header.agrees ∧ l.line.header.pendingCount = countPending l.line.points) ∧
  (l.state = .skipped → l.line.header.uncoloured ∧ countPending l.line.points = 0)

/-- The lines CLR's lists and passes name (R135, R138): the colour queue and a first pass name lines of the closed-line
list only as COLOURING, the pending-line list and a back-fill step name committed lines. -/
abbrev ColourListsInv (s : State) : Prop :=
  s.clr.colourQueue.Nodup ∧
  (∀ l ∈ s.rng.closed,
    l.line.number ∈ s.clr.colourQueue ∨ s.clr.firstPassRunning.map Pass.line = some l.line.number → l.state = .colouring) ∧
  (∀ n ∈ s.clr.pendingList, n ∈ s.rng.committed.map RingLine.number) ∧
  (∀ x ∈ s.clr.stepRunning, x.line ∈ s.rng.committed.map RingLine.number)

/-- The headers and records that no pass has coloured yet: in the Point FIFO, in LNB's open line, in the ring's open line. -/
abbrev UncolouredInv (s : State) : Prop :=
  (∀ x ∈ s.lnb.fifo, ∀ h ∈ x.header, h.lineNumber = x.line ∧ h.uncoloured) ∧
  (∀ h ∈ s.lnb.openLine, h.uncoloured) ∧
  (∀ o ∈ s.rng.openLine, countPending o.points = 0)

/-- R119: the pending count of a committed line is the number of its points that are PENDING, but for those that the
back-fill step in progress on it has already taken out; with what keeps it so: the order of line numbers, CLR's lists, the
uncoloured headers and points, and the counts of closed lines. -/
abbrev LineColourInv (s : State) : Prop :=
  LineOrderInv s ∧ ColourListsInv s ∧ UncolouredInv s ∧
  (∀ l ∈ s.rng.closed, l.counted s.clr) ∧
  (∀ l ∈ s.rng.committed, l.header.agrees ∧
    l.header.pendingCount = countPending l.points + s.clr.leftPending l.number)

/-- The invariants of the machine together. -/
structure MachineInv (s : State) : Prop where
  scan : ScanInv s
  encoders : EncoderInv s
  pulses : PulseInv s
  setups : SetupInv s
  lines : LineInv s
  ring : RingInv s
  exposures : ExposureInv s
  table : TableInv s
  area : TileAreaInv s
  counters : CounterInv s
  attention : AttentionInv s
  down : DownPortInv s
  checks : CheckTableInv s
  colours : LineColourInv s

end Sys2Proof.Machine
end

