-- ==== Sys2Proof/Certificates/Slice0/Obligations.lean ====
section
/-! DEFINITION. The statements for the provers. In each, `e` is the state once the command's `dt` ft have passed, and
`State.settle` is the end of a step (R94, log 7): readers that may begin do, the colour engine chooses, the idle DRAM is granted.
What `settle` leaves alone is in Laws/Settle.lean.
`dt`, the ft that pass before a command, is the model's way to say when a command comes (log 1).
A `Statement` is a part of the statement that follows it. -/

open Sys2Proof Sys2Proof.Machine

/-! ### The step, time and reset -/

/-- A step takes the command at the front of the queue and runs it with the queue's rest. -/
def Obligations.StepTakesTheFront : Prop :=
  ∀ (c : Instr) (rest : List Instr) (s : State), s.pending = c :: rest → step s = exec c { s with pending := rest }

/-- The state POWER_ON leaves, field by field, with the roles of the straps. -/
def Obligations.PowerOnState : Prop :=
  ∀ (straps : Quad (BitVec 2)) (s : State), ∃ t : State, exec (.powerOn straps) s = .next t ∧
    t.tb = 0 ∧
    t.scn = ⟨.idle, 0, none, none, none, 0, none, none, [], false, defaultScanParams⟩ ∧
    t.lnb.lineCounter = 0 ∧ t.lnb.openLine = none ∧ t.lnb.spent = none ∧ t.lnb.mask = [] ∧ t.lnb.fifo = [] ∧
    t.exs.idCounter = 0 ∧ t.exs.log = [] ∧ t.exs.stations = [] ∧ t.exs.setup = defaultCameraSetup ∧
    t.exs.nextStation = 0 ∧ t.exs.periodic = 4096 ∧
    t.ang.calibration = List.replicate 256 0 ∧
    t.ang.mirror = ⟨0, 0, false, true, []⟩ ∧ t.ang.azimuth = ⟨0, 0, false, true, []⟩ ∧ t.ang.travel = 0 ∧
    t.ang.suspect = none ∧ t.ang.prevIndex = none ∧ t.ang.tm = none ∧ t.ang.band = .unknown ∧
    t.ang.stall = some ⟨0, 2000 * 256000⟩ ∧
    t.eca.link = .down ∧ t.eca.history = [] ∧ t.eca.prevEmit = none ∧ t.eca.lastFault = none ∧
    t.rng.committed = [] ∧ t.rng.closed = [] ∧ t.rng.openLine = none ∧ t.rng.discarding = none ∧
    t.rng.lostCount = 0 ∧ t.rng.lostBoundary = none ∧ t.rng.mode = .normal ∧ t.rng.run = 0 ∧
    t.rng.lastRR = .reader 3 ∧
    t.clr.slots = [] ∧ t.clr.sectors = List.replicate 64 [] ∧ t.clr.colourQueue = [] ∧ t.clr.pass = none ∧
    t.clr.work = none ∧ t.clr.backfillQueue = [] ∧ t.clr.sweepMark = false ∧ t.clr.pendingList = [] ∧
    (∀ n ∈ t.counters, n = 0) ∧
    (∀ p, t.stream p = ⟨false, .settled, 0, 0, false, none, [], none⟩) ∧
    (∀ p, t.atn.get p = ⟨0, 0, 0, 0, .fixed, 0, [0, 1, 2, 3, 4, 5, 6, 7, 8, 9, 10, 11], false⟩) ∧
    (∀ p, (t.port p).link = .down ∧ (t.port p).tags = Quad.all none ∧ (t.port p).outgoing = [] ∧
      (t.port p).sense = ⟨.none, 0, 0, false, 0⟩) ∧
    (∀ p, (t.port p).role = match straps.get p with
      | 0 => .control
      | 1 => .imaging
      | 2 => .recording
      | 3 => .viewer) ∧
    t.pending = s.pending

/-- The state right after reset is the state POWER_ON leaves for the straps CONTROL, IMAGING, RECORDING, VIEWER (the
roles are the model's choice, log 4) with no command waiting, and every invariant of the machine holds in it. -/
def Obligations.ResetState : Prop :=
  (∀ s : State, s.pending = [] → exec (.powerOn ⟨0, 1, 2, 3⟩) s = .next State.reset) ∧ MachineInv State.reset

/-- The passing of `dt` ft short of the wrap moves the timebase and nothing else. -/
def Statement.TimeMovesOnlyTheTimebase : Prop :=
  ∀ (s : State) (dt : Nat), s.tb.toNat + dt < 2 ^ 64 →
    s.elapse dt = { s with tb := BitVec.ofNat 64 (s.tb.toNat + dt) }

/-- The passing of time across the wrap counts modulo 2^64 and takes the wrap on the way (log 1): every OPEN pulse closes, in
history order, before both histories are emptied. -/
def Statement.TimeTakesTheWrap : Prop :=
  ∀ (s t : State) (dt : Nat), 2 ^ 64 ≤ s.tb.toNat + dt →
    t = (s.eca.history.filter (fun r => decide (r.state = .isOpen))).foldl State.closePulse
      { s with tb := BitVec.ofNat 64 (s.tb.toNat + dt) } →
    s.elapse dt = State.settle { t with
      eca := { t.eca with history := [], prevEmit := none }
      ang := { t.ang with
        mirror := { t.ang.mirror with history := [] }
        azimuth := { t.ang.azimuth with history := [] }
        prevIndex := none } } ∧
    (s.elapse dt).tb = BitVec.ofNat 64 (s.tb.toNat + dt) ∧
    (s.elapse dt).eca.history = [] ∧ (s.elapse dt).eca.prevEmit = none ∧
    (s.elapse dt).ang.mirror = { s.ang.mirror with history := [] } ∧
    (s.elapse dt).ang.azimuth = { s.ang.azimuth with history := [] } ∧ (s.elapse dt).ang.prevIndex = none ∧
    (s.elapse dt).ang.stall = s.ang.stall ∧ (s.elapse dt).scn = s.scn ∧ (s.elapse dt).exs = s.exs ∧
    SamePorts s (s.elapse dt) ∧ (s.elapse dt).pending = s.pending

/-- With no command waiting, a step lets 1 ft pass and changes nothing else (the model's choice, log 2). -/
def Statement.IdleStepLetsTimePass : Prop :=
  ∀ s : State, s.pending = [] → s.tb.toNat + 1 < 2 ^ 64 → step s = .next { s with tb := s.tb + 1 }

/-- The wrap of the timebase: every OPEN pulse closes, in history order, its point going to LNB or being counted under the
no-return policy DROP as at any close; then the count is 0, ECA's history and both edge histories are empty, the previous EMIT
and the previous index time are absent, and the scan, the exposures and the commands waiting stay. -/
def Statement.TimebaseWrap : Prop :=
  ∀ (s u t : State),
    u = (s.eca.history.filter (fun r => decide (r.state = .isOpen))).foldl State.closePulse { s with tb := 0 } →
    t = State.settle { u with
      eca := { u.eca with history := [], prevEmit := none }
      ang := { u.ang with
        mirror := { u.ang.mirror with history := [] }
        azimuth := { u.ang.azimuth with history := [] }
        prevIndex := none } } →
    exec .tbWrap s = .next t ∧
    t.tb = 0 ∧ t.eca.history = [] ∧ t.eca.prevEmit = none ∧ t.eca.link = s.eca.link ∧
    t.ang.mirror = { s.ang.mirror with history := [] } ∧ t.ang.azimuth = { s.ang.azimuth with history := [] } ∧
    t.ang.prevIndex = none ∧ t.ang.tm = s.ang.tm ∧ t.ang.band = s.ang.band ∧ t.ang.travel = s.ang.travel ∧
    t.ang.stall = s.ang.stall ∧ t.ang.calibration = s.ang.calibration ∧ t.ang.suspect = s.ang.suspect ∧
    t.scn = s.scn ∧ t.exs = s.exs ∧ t.lnb.mask = s.lnb.mask ∧ SamePorts s t ∧ t.pending = s.pending

/-- The timebase: the passing of time, the step on an empty queue and the wrap. -/
def Obligations.TimebaseRule : Prop :=
  Statement.TimeMovesOnlyTheTimebase ∧ Statement.TimeTakesTheWrap ∧ Statement.IdleStepLetsTimePass ∧
    Statement.TimebaseWrap

/-! ### The client protocol (R166 to R173) -/

/-- A code that names no command is refused ARG with the code in the sense info. -/
def Statement.UnknownCodeRefused : Prop :=
  ∀ (dt : Nat) (p : PortId) (tag : Tag) (code : Byte) (s e : State), e = s.elapse dt → e.ready p tag →
    exec (.unknownCommand dt p tag code) s = .next (e.refused p tag .arg (some code.toNat))

/-- A command that the port's role may not send is refused ROLE, with code 0 and info not valid, and nothing else
changes. -/
def Statement.RoleRefusal : Prop :=
  ∀ (c : Instr) (p : PortId) (tag : Tag) (s e : State), c.tagged = some (p, tag) → e = s.elapse c.elapsed →
    e.ready p tag → c.allowed (e.port p).role = false → exec c s = .next (e.refused p tag .role none)

/-- A command whose tag is in flight is answered BUSY on that tag after its sense record is cleared, and nothing else
changes; a SENSE READ skips the clearing. -/
def Statement.TagInFlightIsBusy : Prop :=
  (∀ (c : Instr) (p : PortId) (tag : Tag) (s e : State), c.tagged = some (p, tag) → e = s.elapse c.elapsed →
    (e.port p).link = .up → (e.port p).tags.get tag ≠ none → exec c s = .next (e.replied p tag .busy)) ∧
  (∀ (dt : Nat) (p : PortId) (tag : Tag) (s e : State), e = s.elapse dt → (e.port p).link = .up →
    (e.port p).tags.get tag ≠ none →
    exec (.senseRead dt p tag) s =
      .next (e.withPort p { e.port p with outgoing := (e.port p).outgoing ++ [replyFrame tag .busy] }))

/-- While a client link is DOWN a command on it changes nothing but the time (R166 says that no frame arrives; that the
command then passes over is the model's choice, log 3). -/
def Statement.DownLinkTakesNothing : Prop :=
  ∀ (c : Instr) (p : PortId) (tag : Tag) (s e : State), c.tagged = some (p, tag) → e = s.elapse c.elapsed →
    (e.port p).link = .down → exec c s = .next e

/-- A command that is not taken: its code names none, its role may not send it, its tag is in flight, its link is DOWN. -/
def Obligations.CommandNotTaken : Prop :=
  Statement.UnknownCodeRefused ∧ Statement.RoleRefusal ∧ Statement.TagInFlightIsBusy ∧ Statement.DownLinkTakesNothing

/-- Training and loss of a client link. A loss counts, empties the queue, idles every tag, undoes what its commands in flight
had begun, closes the stream with its read-check table and unsure mark emptied, clears the sense record, puts the attention
controller in its power-on state, and leaves the scan running, the role and every other port's role, link and counters. -/
def Obligations.ClientLinks : Prop :=
  (∀ (dt : Nat) (p : PortId) (s e : State), e = s.elapse dt → (e.port p).link = .down →
    exec (.clientLinkUp dt p) s = .next (e.withPort p { e.port p with link := .up })) ∧
  (∀ (dt : Nat) (p : PortId) (s e : State), e = s.elapse dt → (e.port p).link = .up →
    ∃ u t : State, t = u.settle ∧ exec (.clientLinkLoss dt p) s = .next t ∧ PortEndUndone p e u ∧
      (t.port p).link = .down ∧ (t.port p).outgoing = [] ∧ (t.port p).tags = Quad.all none ∧
      (t.port p).sense = ⟨.none, 0, 0, false, 0⟩ ∧ (t.port p).role = (e.port p).role ∧
      (t.port p).counters.linkLosses = bump (e.port p).counters.linkLosses 1 ∧
      (t.port p).counters.badFrames = (e.port p).counters.badFrames ∧
      (t.port p).counters.strayDataFrames = (e.port p).counters.strayDataFrames ∧
      (t.stream p).isOpen = false ∧ t.atn.get p = atnPowerOn ∧
      (∀ q, q ≠ p → (t.port q).link = (e.port q).link ∧ (t.port q).role = (e.port q).role ∧
        (t.port q).counters = (e.port q).counters) ∧
      t.scn.state = e.scn.state ∧ t.scn.laser = e.scn.laser ∧ t.scn.session = e.scn.session ∧
      t.scn.params = e.scn.params ∧ t.scn.cause = e.scn.cause ∧
      t.tb = e.tb ∧ t.ang = e.ang ∧ t.eca = e.eca ∧ t.pending = e.pending)

/-- TAG ABORT: a target above 3 is refused ARG with info 1, an idle target gives DONE, and a command in flight on the target
that gathers bytes or reads at once ends CHECK ABORTED before the DONE, with no other effect. -/
def Statement.TagAbortCommand : Prop :=
  ∀ (dt : Nat) (p : PortId) (tag : Tag) (target : Byte) (s e : State), e = s.elapse dt → (e.port p).link = .up →
    (4 ≤ target.toNat → exec (.tagAbort dt p tag target) s = .next (e.refused p tag .arg (some 1))) ∧
    (∀ x : Tag, target.toNat = x.val → (e.port p).tags.get x = none →
      exec (.tagAbort dt p tag target) s = .next (e.replied p tag .done).settle) ∧
    (∀ (x : Tag) (j : Job), target.toNat = x.val → (e.port p).tags.get x = some j →
      ((∃ b, j = .scanSetup b) ∨ (∃ b, j = .mirrorCalibrate b) ∨ (∃ b, j = .cameraSetup b) ∨ (∃ n b, j = .maskLoad n b) ∨
        (∃ n b, j = .stationLoad n b) ∨ (∃ ops b, j = .tileDescriptor ops b) ∨ (∃ c ps, j = .reading c ps)) →
      exec (.tagAbort dt p tag target) s = .next (State.settle (e.withPort p
        { (e.port p).idleTag x with
          sense := senseOf x .aborted 0 none
          outgoing := ((e.port p).idleTag x).outgoing ++ [checkFrame x .aborted 0, replyFrame tag .done] })))

/-- What TAG ABORT undoes for the other commands: an ARMED scan start loses its reply alone, a scan stop its place in the
list; a tile load frees its slot and puts its exposure back to EXPOSED with the held time running again; the RETIRING slot of
a tile retire has no reply to give; a LINES READ leaves its stream open, with no READY (the model's choice, log 34). A transfer
of the loader or the reader in progress is no longer wanted. -/
def Statement.TagAbortUndoes : Prop :=
  ∀ (dt : Nat) (p : PortId) (tag x : Tag) (target : Byte) (q : Port) (s e : State), e = s.elapse dt →
    (e.port p).link = .up → target.toNat = x.val →
    q = { (e.port p).idleTag x with
      sense := senseOf x .aborted 0 none
      outgoing := ((e.port p).idleTag x).outgoing ++ [checkFrame x .aborted 0, replyFrame tag .done] } →
    ((e.port p).tags.get x = some .scanStart →
      exec (.tagAbort dt p tag target) s = .next (State.settle { e.withPort p q with
        scn := { e.scn with startReply := none } })) ∧
    ((e.port p).tags.get x = some .scanStop →
      exec (.tagAbort dt p tag target) s = .next (State.settle { e.withPort p q with
        scn := { e.scn with stopReplies := e.scn.stopReplies.filter (fun o => decide (o ≠ ⟨p, x⟩)) } })) ∧
    (∀ (k : Nat) (t : TileSlot) (before after : List Exposure) (r : Exposure) (left : Nat),
      (e.port p).tags.get x = some (.tileCells k) → e.clr.slot k = some t →
      e.exs.log = before ++ r :: after → (∀ y ∈ before, y.id ≠ r.id) → (∀ y ∈ after, y.id ≠ r.id) →
      r.id = t.exposure → r.held = some left →
      exec (.tagAbort dt p tag target) s = .next (State.settle { e.withPort p q with
        rng := { e.rng with inProgress := e.rng.inProgress.map (fun y =>
            if y.owner = .tileLoader k then { y with wanted := false } else y) }
        clr := { e.clr with
          slots := e.clr.slots.filter (fun y => decide (y.slot ≠ k))
          loader := e.clr.loader.filter (fun c => decide (c.slot ≠ k)) }
        exs := { e.exs with log := before ++ { r with
          state := .exposed, slot := none, held := none, deadline := some ⟨e.tb, left⟩ } :: after } })) ∧
    (∀ k, (e.port p).tags.get x = some (.tileRetire k) →
      exec (.tagAbort dt p tag target) s = .next (State.settle { e.withPort p q with
        clr := { e.clr with slots := e.clr.slots.map (fun t => if t.slot = k then { t with owner := none } else t) } })) ∧
    ((e.port p).tags.get x = some .linesRead →
      exec (.tagAbort dt p tag target) s = .next (State.settle { e.withPort p q with
        rng := { e.rng with inProgress := e.rng.inProgress.map (fun y =>
            if y.owner = .reader p then { y with wanted := false } else y) }
        str := e.str.set p { e.stream p with read := none } }))

/-- PORT RESET: every tag is idle, what the commands in flight had begun is undone, no frame of an unfinished command waits
behind the one being sent, the stream is CLOSED with its read-check table and unsure mark emptied, the sense record is clear, the attention controller is in its power-on state, DONE is handed, and the role, the
link and the counters of every port stay, with the scan state and LASER PERMIT. The frame being sent is the head of the
queue (the model's choice, log 11). -/
def Statement.PortResetCommand : Prop :=
  ∀ (dt : Nat) (p : PortId) (tag : Tag) (s e : State), e = s.elapse dt → (e.port p).link = .up →
    ∃ u : State, exec (.portReset dt p tag) s = .next u.settle ∧ PortEndUndone p e u ∧
      (u.port p).tags = Quad.all none ∧ (u.port p).sense = ⟨.none, 0, 0, false, 0⟩ ∧
      (u.port p).outgoing = cutQueue (e.port p).outgoing ++ [replyFrame tag .done] ∧
      (u.stream p).isOpen = false ∧ u.atn.get p = ⟨0, 0, 0, 0, .fixed, 0, [0, 1, 2, 3, 4, 5, 6, 7, 8, 9, 10, 11], false⟩ ∧
      (∀ q, q ≠ p → u.port q = e.port q ∧ u.stream q = e.stream q ∧ u.atn.get q = e.atn.get q) ∧
      SamePorts e u ∧ u.scn.state = e.scn.state ∧ u.scn.laser = e.scn.laser ∧ u.scn.params = e.scn.params ∧
      u.scn.session = e.scn.session ∧ u.scn.armed = e.scn.armed ∧ u.scn.drain = e.scn.drain ∧
      u.tb = e.tb ∧ u.ang = e.ang ∧ u.eca = e.eca ∧ u.lnb = e.lnb ∧ u.pending = e.pending

/-- TAG ABORT and PORT RESET. -/
def Obligations.CommandsEndedByTheClient : Prop :=
  Statement.TagAbortCommand ∧ Statement.TagAbortUndoes ∧ Statement.PortResetCommand

/-- A frame discarded by its CRC, kind or length counts on its port and changes nothing else; a DATA-OUT frame with no
payload byte or more than 1,024 is one. -/
def Statement.BadFrameCounts : Prop :=
  ∀ (dt : Nat) (p : PortId) (s e u : State), e = s.elapse dt → (e.port p).link = .up →
    u = e.withPort p { e.port p with
      counters := { (e.port p).counters with badFrames := bump (e.port p).counters.badFrames 1 } } →
    exec (.badFrame dt p) s = .next u ∧
    (∀ (tag : Tag) (payload : List Byte), payload.length = 0 ∨ 1024 < payload.length →
      exec (.dataOut dt p tag payload) s = .next u)

/-- A DATA-OUT frame on an idle tag, on the tag of a command that takes no data, or of a TILE LOAD whose cells are all in, is
stray: it counts and hands no bytes. -/
def Statement.StrayDataFrame : Prop :=
  ∀ (dt : Nat) (p : PortId) (tag : Tag) (payload : List Byte) (s e : State), e = s.elapse dt → (e.port p).link = .up →
    1 ≤ payload.length → payload.length ≤ 1024 →
    ((e.port p).tags.get tag = none ∨ (e.port p).tags.get tag = some .scanStart ∨
      (e.port p).tags.get tag = some .scanStop ∨ (e.port p).tags.get tag = some .linesRead ∨
      (∃ k, (e.port p).tags.get tag = some (.tileRetire k)) ∨ (∃ c ps, (e.port p).tags.get tag = some (.reading c ps)) ∨
      (∃ k t, (e.port p).tags.get tag = some (.tileCells k) ∧ e.clr.slot k = some t ∧ t.w * t.h * 3 ≤ t.received)) →
    exec (.dataOut dt p tag payload) s = .next (State.settle (e.withPort p { e.port p with
      counters := { (e.port p).counters with strayDataFrames := bump (e.port p).counters.strayDataFrames 1 } }))

/-- Frames that are discarded and counted. -/
def Obligations.FramesDiscarded : Prop :=
  Statement.BadFrameCounts ∧ Statement.StrayDataFrame

/-- The oldest frame of the queue has been sent. An immediate read of which a DATA-IN frame still waits hands nothing; with
no other to hand, nothing else changes. One on any tag of which none waits, while no other may hand, hands its next payload,
and its DONE behind the last one (the pacing is the model's choice, log 10). -/
def Obligations.FrameTransmitted : Prop :=
  ∀ (dt : Nat) (p : PortId) (f : OutFrame) (rest : List OutFrame) (s e : State), e = s.elapse dt →
    (e.port p).outgoing = f :: rest →
    ((∀ (x : Tag) (c : Byte) (ps : List (List Byte)), (e.port p).tags.get x = some (.reading c ps) →
        ∃ g ∈ rest, g.tag = x ∧ ∃ d, g.body = .dataIn d) →
      exec (.frameTransmitted dt p) s = .next (State.settle (e.withPort p { e.port p with outgoing := rest }))) ∧
    (∀ (x : Tag) (code : Byte) (d : List Byte) (more : List (List Byte)), (e.port p).link = .up →
      (e.port p).tags.get x = some (.reading code (d :: more)) → (∀ g ∈ rest, g.tag = x → ∀ b, g.body ≠ .dataIn b) →
      (∀ (y : Tag) (c : Byte) (ps : List (List Byte)), y ≠ x → (e.port p).tags.get y = some (.reading c ps) →
        ∃ g ∈ rest, g.tag = y ∧ ∃ b, g.body = .dataIn b) →
      exec (.frameTransmitted dt p) s = .next (State.settle (e.withPort p
        (Port.reading { e.port p with outgoing := rest } x code (d :: more)))))

/-! ### Immediate reads and records (R116, R128, R174, R178 to R180, 11.5) -/

/-- IDENTIFY hands the part code 8274, the silicon revision, the port, the four roles, 2,048 MiB and the seven
capacities; SENSE READ hands the record of R173 and does not clear it. -/
def Statement.IdentifyAndSenseRead : Prop :=
  ∀ (dt : Nat) (p : PortId) (tag : Tag) (s e : State), e = s.elapse dt → e.ready p tag →
    exec (.identify dt p tag) s = .next (e.readOut p tag 0x01
      [[0x52, 0x20, Config.siliconRevision, BitVec.ofNat 8 p.val,
        BitVec.ofNat 8 (e.port 0).role.code, BitVec.ofNat 8 (e.port 1).role.code,
        BitVec.ofNat 8 (e.port 2).role.code, BitVec.ofNat 8 (e.port 3).role.code,
        0, 8, 48, 64, 32, 64, 64, 16, 64, 0, 0, 0]]) ∧
    exec (.senseRead dt p tag) s = .next (e.withPort p ((e.port p).reading tag 0x04 [
      [BitVec.ofNat 8 (e.port p).sense.cls.code, BitVec.ofNat 8 (e.port p).sense.code,
        (if (e.port p).sense.valid then 1 else 0), BitVec.ofNat 8 (e.port p).sense.tag.val]
      ++ leBytes 4 (e.port p).sense.info ++ [0, 0, 0, 0]]))

/-- STATUS READ, EXPOSURES READ and TILES LIST hand the bytes of one step's state, cut into frames of 1 to 1,024 bytes,
and change nothing else: the whole status with the command's own tag in flight, the log's records above `after` up to the
count, and one entry for each slot that is not FREE (how the bytes are cut, and the encodings of the status, are logs 9,
13 and 14). -/
def Statement.ReadsOfOneStep : Prop :=
  ∀ (dt : Nat) (p : PortId) (tag : Tag) (s e : State), e = s.elapse dt → e.ready p tag →
    (∃ ps, ps.flatten = (e.held p tag (.reading 0x02 []) []).status ∧ (∀ x ∈ ps, 1 ≤ x.length ∧ x.length ≤ 1024) ∧
      exec (.statusRead dt p tag) s = .next (e.readOut p tag 0x02 ps)) ∧
    (∀ (after : BitVec 32) (count : Byte), count.toNat ≤ 64 →
      ∃ ps, ps.flatten = (((e.exs.log.filter (fun x => decide (after.toNat < x.id))).take
          (if count.toNat = 0 then 64 else count.toNat)).flatMap (fun x => x.bytes e.tb)) ∧
        (∀ x ∈ ps, 1 ≤ x.length ∧ x.length ≤ 1024) ∧
        exec (.exposuresRead dt p tag after count) s = .next (e.readOut p tag 0x22 ps)) ∧
    (∃ ps, ps.flatten = e.clr.slots.flatMap (fun t => t.bytes
          ((List.range 64).countP t.window.overlaps) (e.clr.sectors.countP (fun l => l.contains t.slot))) ∧
      (∀ x ∈ ps, 1 ≤ x.length ∧ x.length ≤ 1024) ∧
      exec (.tilesList dt p tag) s = .next (e.readOut p tag 0x32 ps))

/-- IDENTIFY, SENSE READ, STATUS READ, EXPOSURES READ and TILES LIST. -/
def Obligations.ImmediateReads : Prop :=
  Statement.IdentifyAndSenseRead ∧ Statement.ReadsOfOneStep

/-- The 44 bytes of an exposure record: id, state, slot or 255, the three times as their low 48 bits or all ones, the window
or zeros, the remaining deadline in whole µs or all ones, whether the start is present. -/
def Statement.ExposureRecord : Prop :=
  ∀ (x : Exposure) (now : Time) (state : Nat) (time : Option Time → List Byte) (window left : List Byte),
    state = (match x.state with
      | .triggered => 1
      | .exposed => 2
      | .loading => 3
      | .tiled => 4
      | .expired => 5
      | .dropped => 6
      | .missed => 7) →
    time = (fun t => match t with
      | some c => leBytes 6 c.toNat
      | none => List.replicate 6 255) →
    (x.window = none → window = List.replicate 12 0) →
    (∀ w, x.window = some w → window =
      leBytes 3 w.azStart.toNat ++ leBytes 3 w.azWidth ++ leBytes 3 w.mLow.toNat ++ leBytes 3 w.mHigh.toNat) →
    (x.deadline = none → x.held = none → left = List.replicate 4 255) →
    (∀ n, x.deadline = none → x.held = some n → left = leBytes 4 (n / 256000)) →
    (∀ r, x.deadline = some r → left = leBytes 4 ((r.length - (now - r.start).toNat) / 256000)) →
    x.bytes now = leBytes 4 x.id ++ [BitVec.ofNat 8 state, BitVec.ofNat 8 (x.slot.getD 255)] ++
      time (some x.triggerTime) ++ time x.start ++ time x.endTime ++ window ++ left ++
      [(if x.start.isSome then 1 else 0), 0, 0, 0]

/-- The 24 bytes of a tile list entry, with its two sector counts, and how a field of n bytes is sent: least significant
byte first. -/
def Statement.TileEntry : Prop :=
  (∀ (t : TileSlot) (overlapped indexed state : Nat), state = (match t.state with
      | .loading => 1
      | .valid => 2
      | .retiring => 3) →
    t.bytes overlapped indexed = [BitVec.ofNat 8 t.slot, BitVec.ofNat 8 state, BitVec.ofNat 8 t.w, BitVec.ofNat 8 t.h,
      BitVec.ofNat 8 t.priority, BitVec.ofNat 8 t.pins, BitVec.ofNat 8 overlapped, BitVec.ofNat 8 indexed] ++
      leBytes 4 t.exposure ++ leBytes 3 t.window.azStart.toNat ++ leBytes 3 t.window.azWidth ++
      leBytes 3 t.window.mLow.toNat ++ leBytes 3 t.window.mHigh.toNat) ∧
  (∀ n v, (leBytes n v).length = n ∧ ∀ i, i < n → (leBytes n v).getD i 0 = BitVec.ofNat 8 (v / 256 ^ i))

/-- The bytes of a line header, a point record and an echo. The codes of a flag byte are bits in the order listed. -/
def Statement.LineRecords : Prop :=
  ∀ (h : LineHeader) (x : Echo) (p : Point) (flags : List Bool → Nat),
    (∀ bs, flags bs = (bs.zipIdx.map (fun b => if b.1 then 2 ^ b.2 else 0)).sum) →
    h.bytes = leBytes 4 h.lineNumber ++ leBytes 2 h.session.toNat ++ leBytes 4 h.revolution.toNat ++
      leBytes 8 h.firstEmission.toNat ++ leBytes 8 h.lastEmission.toNat ++ leBytes 3 h.firstA.toNat ++
      leBytes 3 h.lastA.toNat ++ leBytes 2 h.pointCount ++ leBytes 2 h.fifoDropped ++ leBytes 4 h.lostBefore ++
      [BitVec.ofNat 8 (flags [h.flags.truncated, h.flags.aborted, h.flags.suspect, h.flags.pointsDropped,
        h.flags.colourSkipped, h.flags.quality]), (if h.colour = .settled then 0 else 1)] ++
      leBytes 2 h.pendingCount ++ [0, 0, 0, 0] ∧
    x.bytes = leBytes 3 x.range.toNat ++ leBytes 2 x.amplitude.toNat ++
      [x.width, BitVec.ofNat 8 (flags [x.near, x.far, x.weak, x.saturated]), 0] ∧
    p.bytes = leBytes 3 p.m.toNat ++ leBytes 3 p.a.toNat ++ [BitVec.ofNat 8 (p.echoes.length + 8 * (match p.colourState with
        | .absent => 0
        | .pending => 1
        | .present => 2)),
        BitVec.ofNat 8 (flags [p.flags.extrapolated, p.flags.stale, p.flags.suspect, p.flags.echoOverflow,
          p.flags.noReturn, p.flags.maskTag]), p.colour.r, p.colour.g, p.colour.b, p.colourTag] ++
      p.echoes.flatMap Echo.bytes

/-- STATUS READ's bytes: a section for each block, then three for each port, each behind its 2-byte length. An item that may
be absent has a presence byte before it and zeros in its place; a flag is 1 or 0 (log 30). TB, ANG, ECA and SCN; `opt n x` is
such an item of n bytes. Codes that 11.5 does not give are log 13's, zeros for a part of an item that does not apply log
30's. -/
def Statement.StatusOfTheScan : Prop :=
  ∀ (s : State) (opt : Nat → Option (List Byte) → List Byte) (flag : Bool → Byte),
    (∀ n, opt n none = List.replicate (n + 1) 0) → (∀ n b, opt n (some b) = 1 :: b) → (∀ b, flag b = if b then 1 else 0) →
    (∃ sections : List (List Byte), sections = [s.statusTb, s.statusAng, s.statusEca, s.statusScn, s.statusLnb, s.statusRng,
        s.statusExs, s.statusClr] ++ ([0, 1, 2, 3] : List PortId).flatMap
          (fun p => [(s.stream p).statusBytes, (s.port p).statusBytes, (s.atn.get p).statusBytes]) ∧
      s.status = sections.flatMap (fun b => leBytes 2 b.length ++ b)) ∧
    s.statusTb = leBytes 8 s.tb.toNat ∧
    s.statusAng = leBytes 2 s.ang.mirror.count ++ leBytes 2 s.ang.azimuth.count ++ leBytes 4 s.ang.mirror.turn.toNat ++
      leBytes 4 s.ang.azimuth.turn.toNat ++ [flag s.ang.mirror.aligned, flag s.ang.azimuth.aligned] ++
      leBytes 8 s.ang.travel.toNat ++ ([(match s.ang.band with
        | .unknown => 0
        | .inBand => 1
        | .outOfBand => 2)] : List Byte) ++
      opt 8 (s.ang.tm.map (fun t => leBytes 8 t.toNat)) ++ opt 4 (s.ang.suspect.map (fun r => leBytes 4 r.toNat)) ∧
    s.statusEca = ([(if s.eca.link = .up then 1 else 0), BitVec.ofNat 8 s.eca.history.length,
        BitVec.ofNat 8 (s.eca.history.countP (fun r => decide (r.state = .isOpen)))] : List Byte) ++
      opt 10 (s.eca.prevEmit.map (fun q => leBytes 2 q.id.toNat ++ leBytes 8 q.time.toNat)) ++
      opt 2 (s.eca.lastFault.map (fun x => match x with
        | .link => [0, 0]
        | .record code => [1, code])) ∧
    s.statusScn = ([(match s.scn.state with
        | .idle => 0
        | .armed => 1
        | .running => 2
        | .draining => 3
        | .fault => 4)] : List Byte) ++
      opt 2 (s.scn.cause.map (fun c => match c with
        | .mirrorBand => [1, 0]
        | .mirrorStall => [2, 0]
        | .mirrorReverse => [3, 0]
        | .rangingRecord code => [4, code]
        | .rangingLink => [5, 0])) ++
      leBytes 2 s.scn.session.toNat ++ opt 3 (s.scn.startAz.map (fun a => leBytes 3 a.toNat)) ++
      [BitVec.ofNat 8 s.scn.inBand, flag s.scn.laser]

/-- The sections of LNB, RNG, EXS and CLR. -/
def Statement.StatusOfTheLines : Prop :=
  ∀ (s : State) (opt : Nat → Option (List Byte) → List Byte) (flag : Bool → Byte),
    (∀ n, opt n none = List.replicate (n + 1) 0) → (∀ n b, opt n (some b) = 1 :: b) → (∀ b, flag b = if b then 1 else 0) →
    s.statusLnb = opt 10 (s.lnb.openLine.map (fun h =>
        leBytes 4 h.lineNumber ++ leBytes 4 h.revolution.toNat ++ leBytes 2 (h.pointCount + h.fifoDropped))) ++
      leBytes 4 s.lnb.lineCounter ++ opt 4 (s.lnb.spent.map (fun r => leBytes 4 r.toNat)) ++
      leBytes 2 (fifoPoints s.lnb.fifo) ++ [BitVec.ofNat 8 s.lnb.mask.length] ∧
    (∃ ends : Option (List Byte), (s.rng.committed = [] → ends = none) ∧
      (∀ l rest, s.rng.committed = l :: rest →
        ends = some (leBytes 4 l.header.lineNumber ++ leBytes 4 (rest.getLastD l).header.lineNumber)) ∧
      s.statusRng = leBytes 4 (s.scn.params.ringSize * 67108864) ++ leBytes 4 s.rng.occupancy ++
        leBytes 4 s.rng.committed.length ++ opt 8 ends ++ [BitVec.ofNat 8 s.rng.closed.length,
          BitVec.ofNat 8 (s.rng.closed.countP (fun l => decide (l.state = .colouring)))] ++
        opt 8 (s.rng.openLine.map (fun o =>
          leBytes 4 o.number ++ leBytes 4 (48 + (o.points.map (fun p => 12 + 8 * p.echoes.length)).sum))) ++
        leBytes 4 s.rng.lostCount ++ ([(if s.rng.mode = .normal then 0 else 1)] : List Byte)) ∧
    s.statusExs = ([(match s.exs.setup.mode with
        | .off => 0
        | .stations => 1
        | .periodic => 2), BitVec.ofNat 8 s.exs.stations.length, BitVec.ofNat 8 s.exs.nextStation] : List Byte) ++
      leBytes 4 s.exs.periodic ++ leBytes 4 s.exs.idCounter ++ [BitVec.ofNat 8 s.exs.log.length,
        BitVec.ofNat 8 (s.exs.log.countP (fun x => decide (x.state = .triggered))),
        BitVec.ofNat 8 (s.exs.log.countP (fun x => decide (x.state = .exposed))),
        BitVec.ofNat 8 (s.exs.log.countP (fun x => decide (x.state = .loading)))] ∧
    s.statusClr = [BitVec.ofNat 8 (48 - s.clr.slots.length),
        BitVec.ofNat 8 (s.clr.slots.countP (fun t => decide (t.state = .loading))),
        BitVec.ofNat 8 (s.clr.slots.countP (fun t => decide (t.state = .valid))),
        BitVec.ofNat 8 (s.clr.slots.countP (fun t => decide (t.state = .retiring))),
        BitVec.ofNat 8 s.clr.colourQueue.length] ++
      opt 5 (s.clr.work.map (fun w => match w.kind with
        | .task x => 0 :: leBytes 4 x
        | .sweep => [1, 0, 0, 0, 0])) ++
      [BitVec.ofNat 8 s.clr.backfillQueue.length, flag s.clr.sweepMark] ++ leBytes 4 s.clr.pendingList.length ++
      opt 4 (s.clr.pendingList.head?.map (leBytes 4))

/-- The STR, PRT and ATN sections of a port. The codes of the commands in flight are those of 11.3. -/
def Statement.StatusOfAPort : Prop :=
  ∀ (s : State) (p : PortId) (opt : Nat → Option (List Byte) → List Byte) (flag : Bool → Byte) (code : Option Job → Byte),
    (∀ n, opt n none = List.replicate (n + 1) 0) → (∀ n b, opt n (some b) = 1 :: b) → (∀ b, flag b = if b then 1 else 0) →
    code = (fun j => match j with
      | none => 0
      | some (.scanSetup _) => 0x10
      | some .scanStart => 0x11
      | some .scanStop => 0x12
      | some (.mirrorCalibrate _) => 0x15
      | some (.maskLoad _ _) => 0x16
      | some (.cameraSetup _) => 0x20
      | some (.stationLoad _ _) => 0x21
      | some (.tileDescriptor _ _) => 0x30
      | some (.tileCells _) => 0x30
      | some (.tileRetire _) => 0x31
      | some .linesRead => 0x42
      | some (.reading c _) => c) →
    (s.stream p).statusBytes = [flag (s.stream p).isOpen, (if (s.stream p).mode = .settled then 0 else 1)] ++
      leBytes 4 (s.stream p).readPoint ++ leBytes 4 (s.stream p).releasePoint ++ [flag (s.stream p).essential] ++
      opt 3 ((s.stream p).read.map (fun r => [BitVec.ofNat 8 r.tag.val, (if r.state = .waiting then 0 else 1),
        BitVec.ofNat 8 r.remaining])) ++
      [BitVec.ofNat 8 ((s.stream p).table.countP (fun x => decide (x.state = .watching))),
        BitVec.ofNat 8 ((s.stream p).table.countP (fun x => decide (x.state = .changed)))] ++
      opt 4 ((s.stream p).unsure.map (leBytes 4)) ∧
    (s.port p).statusBytes = [(if (s.port p).link = .up then 1 else 0), BitVec.ofNat 8 (s.port p).role.code,
      code ((s.port p).tags.get 0), code ((s.port p).tags.get 1), code ((s.port p).tags.get 2),
      code ((s.port p).tags.get 3)] ∧
    (s.atn.get p).statusBytes = [flag (s.atn.get p).line] ++ leBytes 2 (s.atn.get p).enable.toNat ++
      leBytes 2 (s.atn.get p).pending.toNat ++ leBytes 2 (s.atn.get p).double.toNat ++ leBytes 2 (s.atn.get p).held.toNat ++
      [(if (s.atn.get p).mode = .fixed then 0 else 1), BitVec.ofNat 8 (s.atn.get p).first.val, flag (s.atn.get p).frozen]

/-- The SCAN SETUP block: where each field stands, least significant byte first, and its sign (11.4); and the number of its
first field out of range, each test charged to the later field of its pair (R44, R46). -/
def Statement.ScanSetupBlock : Prop :=
  ∀ (b : List Byte) (u8 u16 u24 u32 : Nat → Nat) (q : ScanParams) (legal : Nat → Prop),
    (∀ i, u8 i = (b.getD i 0).toNat) → (∀ i, u16 i = u8 i + 256 * u8 (i + 1)) →
    (∀ i, u24 i = u8 i + 256 * u8 (i + 1) + 65536 * u8 (i + 2)) →
    (∀ i, u32 i = u8 i + 256 * u8 (i + 1) + 65536 * u8 (i + 2) + 16777216 * u8 (i + 3)) →
    (∀ n, legal n ↔ match n with
      | 1 => u8 0 ≤ 3
      | 2 => 5 ≤ u8 1 ∧ u8 1 ≤ 100
      | 3 => 1 ≤ u16 2 ∧ u16 2 ≤ 10000 ∧ u8 1 ≤ 10 * u16 2 ∧ u16 2 ≤ 100 * u8 1
      | 4 => 100 ≤ u32 4 ∧ u32 4 ≤ 100000
      | 5 => 100 ≤ u16 8 ∧ u16 8 ≤ 60000
      | 7 => u24 10 < u24 13
      | 9 => 6000000 ≤ u32 19 ∧ u32 19 ≤ 6200000
      | 12 => u24 25 ≤ u24 28
      | 14 => u8 33 ≤ 2
      | 15 => u8 34 ≤ 1
      | 17 => 2 ≤ u16 39 ∧ u16 39 ≤ 500
      | 18 => 1 ≤ u24 41
      | 20 => 1 ≤ u8 48 ∧ u8 48 ≤ 24
      | _ => True) →
    q = scanParamsOf b →
    (q.zone = u8 0 ∧ q.nominalMs = u8 1 ∧ q.toleranceUs = u16 2 ∧ q.stallUs = u32 4 ∧ q.armedTimeoutMs = u16 8 ∧
      q.ws = u24 10 ∧ q.we = u24 13 ∧ q.mirrorZero = u24 16 ∧ q.rangeScale = u32 19 ∧ q.rangeOffset = u16 23 ∧
      q.nearLimit = u24 25 ∧ q.farLimit = u24 28 ∧ q.weakThreshold = u16 31 ∧
      (u8 33 = 0 → q.qualityPolicy = .keep) ∧ (u8 33 = 1 → q.qualityPolicy = .drop) ∧
      (u8 33 = 2 → q.qualityPolicy = .report) ∧
      (u8 34 = 0 → q.noReturnPolicy = .keep) ∧ (u8 34 = 1 → q.noReturnPolicy = .drop) ∧
      q.azimuthSpan = u32 35 ∧ q.drainUs = u16 39 ∧ q.defaultColourRange = u24 41 ∧
      q.parallax = (BitVec.ofNat 32 (u32 44)).toInt ∧ q.ringSize = u8 48) ∧
    (firstFailure (scanTests b) = none ↔ ∀ n, legal n) ∧
    (∀ n, firstFailure (scanTests b) = some n ↔ ¬ legal n ∧ ∀ m, m < n → legal m)

/-- The CAMERA SETUP block, likewise (11.4, R102). -/
def Statement.CameraSetupBlock : Prop :=
  ∀ (b : List Byte) (u8 u16 u24 u32 : Nat → Nat) (offset : Int) (q : CameraSetup) (legal : Nat → Prop),
    (∀ i, u8 i = (b.getD i 0).toNat) → (∀ i, u16 i = u8 i + 256 * u8 (i + 1)) →
    (∀ i, u24 i = u8 i + 256 * u8 (i + 1) + 65536 * u8 (i + 2)) →
    (∀ i, u32 i = u8 i + 256 * u8 (i + 1) + 65536 * u8 (i + 2) + 16777216 * u8 (i + 3)) →
    offset = (BitVec.ofNat 32 (u32 5)).toInt →
    (∀ n, legal n ↔ match n with
      | 1 => u8 0 ≤ 2
      | 2 => 1 ≤ u32 1 ∧ u32 1 ≤ 65536
      | 3 => -8388608 ≤ offset ∧ offset ≤ 8388607
      | 4 => 1 ≤ u32 9 ∧ u32 9 ≤ 4194304
      | 6 => u24 13 < u24 16
      | 7 => 100 ≤ u32 19 ∧ u32 19 ≤ 1000000
      | 8 => 1 ≤ u16 23 ∧ u16 23 ≤ 600
      | _ => True) →
    q = cameraSetupOf b →
    ((u8 0 = 0 → q.mode = .off) ∧ (u8 0 = 1 → q.mode = .stations) ∧ (u8 0 = 2 → q.mode = .periodic) ∧
      q.interval = u32 1 ∧ q.azOffset = offset ∧ q.halfWidth = u32 9 ∧ q.mLow = u24 13 ∧ q.mHigh = u24 16 ∧
      q.strobeTimeoutUs = u32 19 ∧ q.tileDeadlineS = u16 23) ∧
    (firstFailure (cameraTests b) = none ↔ ∀ n, legal n) ∧
    (∀ n, firstFailure (cameraTests b) = some n ↔ ¬ legal n ∧ ∀ m, m < n → legal m)

/-- The entries of a MASK LOAD, 16 bytes each, and the values of a STATION LOAD, 4 bytes each and signed (11.4); and the first
that fails, a mask entry with the number of its first failing test (R77, R103). -/
def Statement.ListBlocks : Prop :=
  ∀ (b : List Byte) (n : Nat) (u8 u24 u32 : Nat → Nat) (v : Nat → Int) (entries : List (List Byte)) (values : List Int)
    (sound : Nat → Nat → Prop) (above : Nat → Prop),
    (∀ i, u8 i = (b.getD i 0).toNat) → (∀ i, u24 i = u8 i + 256 * u8 (i + 1) + 65536 * u8 (i + 2)) →
    (∀ i, u32 i = u8 i + 256 * u8 (i + 1) + 65536 * u8 (i + 2) + 16777216 * u8 (i + 3)) →
    (∀ i, v i = (BitVec.ofNat 32 (u32 (4 * i))).toInt) →
    entries = recordsOf 16 n b → values = (recordsOf 4 n b).map stationOf →
    (∀ i c, sound i c ↔ match c with
      | 1 => u32 (16 * i) ≤ 16777215 ∧ (0 < i → u32 (16 * (i - 1)) < u32 (16 * i))
      | 2 => 1 ≤ u32 (16 * i + 4) ∧ u32 (16 * i + 4) ≤ 16777216
      | 3 => u24 (16 * i + 8) < u24 (16 * i + 11)
      | 4 => u8 (16 * i + 14) ≤ 1
      | _ => True) →
    (∀ i, above i ↔ 0 ≤ v i ∧ (0 < i → v (i - 1) < v i)) →
    entries.length = n ∧ values.length = n ∧
    (∀ i, i < n → ∃ e : MaskEntry, (entries.map maskEntryOf)[i]? = some e ∧ e.azStart = u32 (16 * i) ∧
      e.azWidth = u32 (16 * i + 4) ∧ e.mLow = u24 (16 * i + 8) ∧ e.mHigh = u24 (16 * i + 11) ∧
      (u8 (16 * i + 14) = 0 → e.action = .drop) ∧ (u8 (16 * i + 14) = 1 → e.action = .tag)) ∧
    (maskFailure 0 none entries = none ↔ ∀ i, i < n → ∀ c, sound i c) ∧
    (∀ i c, maskFailure 0 none entries = some (i, c) ↔
      i < n ∧ ¬ sound i c ∧ (∀ d, d < c → sound i d) ∧ ∀ j, j < i → ∀ d, sound j d) ∧
    (∀ i, i < n → values[i]? = some (v i)) ∧
    (stationFailure 0 none values = none ↔ ∀ i, i < n → above i) ∧
    (∀ i, stationFailure 0 none values = some i ↔ i < n ∧ ¬ above i ∧ ∀ j, j < i → above j)

/-- The byte layouts of the records sent, which are exposures, tiles, headers, points, echoes and the status, and of the blocks
taken with SCAN SETUP, CAMERA SETUP, MASK LOAD and STATION LOAD. -/
def Obligations.RecordLayouts : Prop :=
  Statement.ExposureRecord ∧ Statement.TileEntry ∧ Statement.LineRecords ∧ Statement.StatusOfTheScan ∧
    Statement.StatusOfTheLines ∧ Statement.StatusOfAPort ∧ Statement.ScanSetupBlock ∧ Statement.CameraSetupBlock ∧
    Statement.ListBlocks

/-- COUNTERS READ hands the 48 counters, in the order of the counter tables, as 192 bytes in one frame (the division into frames
is log 9's; R180 says DATA-IN frames); with CLEAR every counter becomes 0 and nothing else changes, and without CLEAR nothing
changes. -/
def Obligations.CountersReadCommand : Prop :=
  (∀ s : State, s.counters = [
    s.ang.counters.mirrorQuadratureErrors, s.ang.counters.azimuthQuadratureErrors, s.ang.counters.mirrorIndexFaults,
    s.ang.counters.azimuthIndexFaults, s.ang.counters.mirrorBandLosses, s.ang.counters.extrapolatedAngles,
    s.ang.counters.staleAngles,
    s.eca.counters.emitFaults, s.eca.counters.pulseGaps, s.eca.counters.idBreaks, s.eca.counters.orphanEchoes,
    s.eca.counters.outOfWindowEchoes, s.eca.counters.qualityDrops, s.eca.counters.orderFaults, s.eca.counters.echoOverflows,
    s.eca.counters.noReturnDrops, s.eca.counters.pulsesDiscarded, s.eca.counters.rangingFaultRecords,
    s.eca.counters.rangingLinkLosses,
    s.lnb.counters.maskDrops, s.lnb.counters.closedRevolutionDrops, s.lnb.counters.fifoDrops, s.lnb.counters.unnumberedPoints,
    s.rng.counters.linesLost, s.rng.counters.abandonedPoints, s.rng.counters.streamOverruns, s.rng.counters.closeWaits,
    s.exs.counters.skippedTriggers, s.exs.counters.spontaneousStrobes, s.exs.counters.missedExposures,
    s.exs.counters.expiredExposures,
    s.clr.counters.colourSkippedLines, s.clr.counters.sectorExclusions, s.clr.counters.backfillOverflows,
    s.strCounters.checkEvictions, s.strCounters.cutDeliveries,
    (s.port 0).counters.badFrames, (s.port 0).counters.strayDataFrames, (s.port 0).counters.linkLosses,
    (s.port 1).counters.badFrames, (s.port 1).counters.strayDataFrames, (s.port 1).counters.linkLosses,
    (s.port 2).counters.badFrames, (s.port 2).counters.strayDataFrames, (s.port 2).counters.linkLosses,
    (s.port 3).counters.badFrames, (s.port 3).counters.strayDataFrames, (s.port 3).counters.linkLosses]) ∧
  ∀ (dt : Nat) (p : PortId) (tag : Tag) (s e : State), e = s.elapse dt → e.ready p tag →
    exec (.countersRead dt p tag false) s = .next (e.readOut p tag 0x03 [e.counters.flatMap (leBytes 4)]) ∧
    exec (.countersRead dt p tag true) s = .next (({ e with
      ang := { e.ang with counters := ⟨0, 0, 0, 0, 0, 0, 0⟩ }
      eca := { e.eca with counters := ⟨0, 0, 0, 0, 0, 0, 0, 0, 0, 0, 0, 0⟩ }
      lnb := { e.lnb with counters := ⟨0, 0, 0, 0⟩ }
      rng := { e.rng with counters := ⟨0, 0, 0, 0⟩ }
      exs := { e.exs with counters := ⟨0, 0, 0, 0⟩ }
      clr := { e.clr with counters := ⟨0, 0, 0⟩ }
      strCounters := ⟨0, 0⟩
      prt := e.prt.map (fun q => { q with counters := ⟨0, 0, 0⟩ }) } : State).readOut p tag 0x03
        [e.counters.flatMap (leBytes 4)])

/-! ### Attention (chapter 10) -/

/-- How an ATN takes a raise, case by case. -/
def Statement.RaiseAtOnePort : Prop :=
  ∀ (a : Atn) (x : EventPos),
    a.raise x .down = a ∧
    (a.frozen = false → EventSet.has a.pending x = false →
      a.raise x .up = { a with pending := EventSet.insert a.pending x }) ∧
    (a.frozen = false → EventSet.has a.pending x = true →
      a.raise x .up = { a with double := EventSet.insert a.double x }) ∧
    (a.frozen = true → EventSet.has a.held x = false →
      a.raise x .up = { a with held := EventSet.insert a.held x }) ∧
    (a.frozen = true → EventSet.has a.held x = true →
      a.raise x .up = { a with double := EventSet.insert a.double x })

/-- A raise on one port is taken by that port's ATN alone and a raise on all ports by each, with its own port's link (10.1
says which ports a raise reaches). -/
def Statement.RaiseReachesThePorts : Prop :=
  ∀ (s : State) (p q : PortId) (x : EventPos),
    (s.raiseOn p x).atn.get p = (s.atn.get p).raise x (s.port p).link ∧
    (q ≠ p → (s.raiseOn p x).atn.get q = s.atn.get q) ∧
    (s.raiseAll x).atn.get p = (s.atn.get p).raise x (s.port p).link ∧
    (∃ atn, s.raiseOn p x = { s with atn := atn }) ∧ (∃ atn, s.raiseAll x = { s with atn := atn })

/-- The attention line is asserted exactly while some position is pending and enabled. -/
def Statement.AttentionLine : Prop :=
  ∀ a : Atn, a.line = true ↔ ∃ x : EventPos, EventSet.has a.pending x = true ∧ EventSet.has a.enable x = true

/-- Raises, and the level of the attention line. -/
def Obligations.RaisesAndTheLine : Prop :=
  Statement.RaiseAtOnePort ∧ Statement.RaiseReachesThePorts ∧ Statement.AttentionLine

/-- EVENT SETUP tests its operands in order, and then takes all three with the rank order they give; the sets and the
frozen flag stay. -/
def Statement.EventSetupCommand : Prop :=
  ∀ (dt : Nat) (p : PortId) (tag : Tag) (enable : BitVec 16) (mode first : Byte) (s e : State), e = s.elapse dt →
    e.ready p tag →
    (4095 < enable.toNat → exec (.eventSetup dt p tag enable mode first) s = .next (e.refused p tag .arg (some 1))) ∧
    (enable.toNat ≤ 4095 → 1 < mode.toNat →
      exec (.eventSetup dt p tag enable mode first) s = .next (e.refused p tag .arg (some 2))) ∧
    (enable.toNat ≤ 4095 → mode.toNat ≤ 1 → 11 < first.toNat →
      exec (.eventSetup dt p tag enable mode first) s = .next (e.refused p tag .arg (some 3))) ∧
    (∀ f : EventPos, enable.toNat ≤ 4095 → mode.toNat ≤ 1 → first.toNat = f.val →
      exec (.eventSetup dt p tag enable mode first) s = .next { e.replied p tag .done with
        atn := e.atn.set p { e.atn.get p with
          enable := BitVec.ofNat 12 enable.toNat
          mode := if mode.toNat = 0 then .fixed else .rotate
          first := f
          rank := [0, 1, 2, 3, 4, 5, 6, 7, 8, 9, 10, 11].drop f.val
            ++ [0, 1, 2, 3, 4, 5, 6, 7, 8, 9, 10, 11].take f.val } })

/-- EVENT NEXT reports the first position in rank order that is pending and enabled, with its double flag, and takes it out
of both sets; in ROTATE mode it goes to the bottom. With none it reports none and changes no set and no order. -/
def Statement.EventNextCommand : Prop :=
  ∀ (dt : Nat) (p : PortId) (tag : Tag) (s e : State) (a : Atn), e = s.elapse dt → e.ready p tag → a = e.atn.get p →
    (∀ (x : EventPos) (before after : List EventPos), a.rank = before ++ x :: after →
      (∀ y ∈ before, (EventSet.has a.pending y && EventSet.has a.enable y) = false) →
      EventSet.has a.pending x = true → EventSet.has a.enable x = true →
      ∃ b : Atn, b = { a with
          pending := EventSet.erase a.pending x
          double := EventSet.erase a.double x
          rank := if a.mode = .rotate then before ++ after ++ [x] else a.rank } ∧
        exec (.eventNext dt p tag) s = .next { e.readOut p tag 0x09
          [[BitVec.ofNat 8 x.val, (if EventSet.has a.double x then 1 else 0)] ++ leBytes 2 b.pending.toNat
            ++ leBytes 2 b.held.toNat ++ [(if b.frozen then 1 else 0), 0]] with atn := e.atn.set p b }) ∧
    ((∀ y ∈ a.rank, (EventSet.has a.pending y && EventSet.has a.enable y) = false) →
      exec (.eventNext dt p tag) s = .next (e.readOut p tag 0x09
        [[255, 0] ++ leBytes 2 a.pending.toNat ++ leBytes 2 a.held.toNat ++ [(if a.frozen then 1 else 0), 0]]))

/-- EVENT FREEZE: ON freezes, OFF merges what was held, and any other code is refused ARG with info 1. -/
def Statement.EventFreezeCommand : Prop :=
  ∀ (dt : Nat) (p : PortId) (tag : Tag) (code : Byte) (s e : State) (a : Atn), e = s.elapse dt → e.ready p tag →
    a = e.atn.get p →
    (code.toNat = 1 → exec (.eventFreeze dt p tag code) s =
      .next { e.replied p tag .done with atn := e.atn.set p { a with frozen := true } }) ∧
    (code.toNat = 0 → a.frozen = true → exec (.eventFreeze dt p tag code) s =
      .next { e.replied p tag .done with atn := e.atn.set p { a with
        pending := a.pending ||| a.held, double := a.double ||| (a.pending &&& a.held), held := 0, frozen := false } }) ∧
    (code.toNat = 0 → a.frozen = false → exec (.eventFreeze dt p tag code) s = .next (e.replied p tag .done)) ∧
    (1 < code.toNat → exec (.eventFreeze dt p tag code) s = .next (e.refused p tag .arg (some 1)))

/-- EVENT SETUP, EVENT NEXT and EVENT FREEZE. -/
def Obligations.EventCommands : Prop :=
  Statement.EventSetupCommand ∧ Statement.EventNextCommand ∧ Statement.EventFreezeCommand

/-! ### Angle capture (chapter 1) -/

/-- The index input going inactive sets the axis's armed flag and changes nothing else. -/
def Statement.IndexInactiveArms : Prop :=
  ∀ (dt : Nat) (s e : State), e = s.elapse dt →
    exec (.indexInactive dt .mirror) s =
      .next { e with ang := { e.ang with mirror := { e.ang.mirror with armed := true } } } ∧
    exec (.indexInactive dt .azimuth) s =
      .next { e with ang := { e.ang with azimuth := { e.ang.azimuth with armed := true } } }

/-- How an edge record enters an edge history. -/
def Statement.EdgeHistoryEntry : Prop :=
  ∀ (h : List EdgeRec) (r n : EdgeRec),
    enterHistory [] r = [r] ∧
    (n.time.toNat < r.time.toNat → (h ++ [n]).length < 32 → enterHistory (h ++ [n]) r = h ++ [n, r]) ∧
    (n.time.toNat < r.time.toNat → (h ++ [n]).length = 32 → enterHistory (h ++ [n]) r = (h ++ [n, r]).tail) ∧
    (n.time = r.time → enterHistory (h ++ [n]) r = h ++ [⟨n.time, r.count, r.turn, r.dir⟩])

/-- A counted mirror edge: the count and the revolution number, realigned at an index edge and stepped at a missed index,
the aligned and armed flags, the edge record, the stall timer, and the index fault with its suspect mark and ENCODER. The
azimuth, the tile area and the mask list stay. The level of the index input is an operand (log 18). -/
def Statement.MirrorEdge : Prop :=
  ∀ (dt : Nat) (dir : Dir) (active : Bool) (s e : State) (count expected : Nat) (turn : BitVec 32)
    (index missed fault : Bool), e = s.elapse dt →
    count = (if dir = .forward then (e.ang.mirror.count + 1) % 16384 else (e.ang.mirror.count + 16384 - 1) % 16384) →
    expected = (if dir = .forward then 0 else 16383) →
    index = (active && e.ang.mirror.armed) →
    missed = (!active && e.ang.mirror.aligned && decide (count = expected)) →
    fault = (missed || (index && e.ang.mirror.aligned && decide (count ≠ expected))) →
    turn = (if index || missed then (if dir = .forward then e.ang.mirror.turn + 1 else e.ang.mirror.turn - 1)
      else e.ang.mirror.turn) →
    ∃ t : State, exec (.quadratureEdge dt .mirror (if dir = .forward then .forward else .backward) active) s = .next t ∧
      t.ang.mirror = ⟨if index then expected else count, turn, e.ang.mirror.aligned || index, !active,
        enterHistory e.ang.mirror.history ⟨e.tb, if index then expected else count, turn, dir⟩⟩ ∧
      t.ang.azimuth = e.ang.azimuth ∧
      t.ang.stall = some ⟨e.tb, e.scn.params.stallUs * 256000⟩ ∧
      t.ang.suspect = (if fault then some e.ang.mirror.turn else e.ang.suspect) ∧
      t.ang.counters.mirrorIndexFaults = (if fault then bump e.ang.counters.mirrorIndexFaults 1
        else bump e.ang.counters.mirrorIndexFaults 0) ∧
      (fault = true → raisedEverywhere evEncoder t) ∧
      t.tb = e.tb ∧ t.scn.params = e.scn.params ∧ t.lnb.mask = e.lnb.mask ∧ t.clr.tileArea = e.clr.tileArea ∧
      SamePorts e t ∧ t.pending = e.pending

/-- A counted azimuth edge: the count, the turn number, the flags, the edge record, AZIMUTH INDEX FAULTS, which counts an index
with another count and a missed one, and the travel, a 64-bit number that wraps (log 24). The mirror, the suspect mark and the stall timer stay. The level of the index input is an operand (log 18). -/
def Statement.AzimuthEdge : Prop :=
  ∀ (dt : Nat) (dir : Dir) (active : Bool) (s e : State) (count expected : Nat) (turn : BitVec 32)
    (index missed fault : Bool), e = s.elapse dt →
    count = (if dir = .forward then (e.ang.azimuth.count + 1) % 65536 else (e.ang.azimuth.count + 65536 - 1) % 65536) →
    expected = (if dir = .forward then 0 else 65535) →
    index = (active && e.ang.azimuth.armed) →
    missed = (!active && e.ang.azimuth.aligned && decide (count = expected)) →
    fault = (missed || (index && e.ang.azimuth.aligned && decide (count ≠ expected))) →
    turn = (if index || missed then (if dir = .forward then e.ang.azimuth.turn + 1 else e.ang.azimuth.turn - 1)
      else e.ang.azimuth.turn) →
    ∃ t : State, exec (.quadratureEdge dt .azimuth (if dir = .forward then .forward else .backward) active) s = .next t ∧
      t.ang.azimuth = ⟨if index then expected else count, turn, e.ang.azimuth.aligned || index, !active,
        enterHistory e.ang.azimuth.history ⟨e.tb, if index then expected else count, turn, dir⟩⟩ ∧
      t.ang.travel = (if dir = .forward then e.ang.travel + 1 else e.ang.travel - 1) ∧
      t.ang.mirror = e.ang.mirror ∧ t.ang.suspect = e.ang.suspect ∧ t.ang.stall = e.ang.stall ∧
      t.ang.counters = { e.ang.counters with
        azimuthIndexFaults := bump e.ang.counters.azimuthIndexFaults (if fault then 1 else 0) } ∧
      (fault = true → raisedEverywhere evEncoder t) ∧
      t.tb = e.tb ∧ t.scn.params = e.scn.params ∧ t.eca = e.eca ∧ t.lnb.mask = e.lnb.mask ∧
      t.clr.tileArea = e.clr.tileArea ∧ SamePorts e t ∧ t.pending = e.pending

/-- Counted edges, the entry of an edge record, and the armed flag. -/
def Obligations.CountedEdges : Prop :=
  Statement.IndexInactiveArms ∧ Statement.EdgeHistoryEntry ∧ Statement.MirrorEdge ∧ Statement.AzimuthEdge

/-- A quadrature error counts on its axis and raises ENCODER; the counts, the turn counters, the histories and the travel
stay, and on the mirror the stall timer is restarted. An inactive index input at the error sets the axis's armed flag, as
it does at any time (log 18). -/
def Statement.QuadratureError : Prop :=
  ∀ (dt : Nat) (axis : Axis) (active : Bool) (s e : State), e = s.elapse dt →
    ∃ t : State, exec (.quadratureEdge dt axis .bothChannels active) s = .next t ∧
      t.ang.mirror = { e.ang.mirror with armed := e.ang.mirror.armed || (decide (axis = .mirror) && !active) } ∧
      t.ang.azimuth = { e.ang.azimuth with armed := e.ang.azimuth.armed || (decide (axis = .azimuth) && !active) } ∧
      t.ang.travel = e.ang.travel ∧
      t.ang.counters.mirrorQuadratureErrors = (if axis = .mirror then bump e.ang.counters.mirrorQuadratureErrors 1
        else e.ang.counters.mirrorQuadratureErrors) ∧
      t.ang.counters.azimuthQuadratureErrors = (if axis = .azimuth then bump e.ang.counters.azimuthQuadratureErrors 1
        else e.ang.counters.azimuthQuadratureErrors) ∧
      t.ang.stall = (if axis = .mirror then some ⟨e.tb, e.scn.params.stallUs * 256000⟩ else e.ang.stall) ∧
      raisedEverywhere evEncoder t ∧ t.tb = e.tb ∧ t.scn = e.scn ∧ t.eca = e.eca ∧ t.pending = e.pending

/-- The stall timer's expiry is a band loss: the timer stays stopped, the band is OUT, the previous index time is absent, a
RUNNING scan faults with cause MIRROR STALL and an ARMED one counts its in-band revolutions again from 0. -/
def Statement.StallExpiry : Prop :=
  ∀ (dt : Nat) (r : TimerRun) (s e : State), e = s.elapse dt → e.ang.stall = some r →
    r.length ≤ (e.tb - r.start).toNat →
    ∃ t : State, exec (.stallTimerExpiry dt) s = .next t ∧
      t.ang = { e.ang with stall := none, band := .outOfBand, prevIndex := none, counters := { e.ang.counters with
        mirrorBandLosses := bump e.ang.counters.mirrorBandLosses 1 } } ∧
      (e.scn.state = .running → t.scn.state = .fault ∧ t.scn.cause = some .mirrorStall ∧ t.scn.laser = false) ∧
      (e.scn.state = .armed → t.scn = { e.scn with inBand := 0 }) ∧
      (e.scn.state = .idle ∨ e.scn.state = .draining ∨ e.scn.state = .fault → t.scn = e.scn) ∧
      t.tb = e.tb ∧ t.pending = e.pending

/-- A forward mirror edge ends a revolution when it is an index edge or a missed index, and only then. Its time becomes the
previous index time; without one before it the revolution is UNMEASURED and leaves Tm and the band; else Tm is measured and
the band is IN within the tolerance and OUT beyond it. SCN in ARMED counts an in-band revolution with the ranging link UP and
starts again from 0 at any other; in RUNNING an OUT OF BAND one faults with MIRROR BAND. -/
def Statement.RevolutionEnds : Prop :=
  ∀ (dt : Nat) (active ends : Bool) (s e : State), e = s.elapse dt →
    ends = (if active then e.ang.mirror.armed
      else e.ang.mirror.aligned && decide ((e.ang.mirror.count + 1) % 16384 = 0)) →
    ∃ t : State, exec (.quadratureEdge dt .mirror .forward active) s = .next t ∧
      (ends = false → t.ang.prevIndex = e.ang.prevIndex ∧ t.ang.tm = e.ang.tm ∧ t.ang.band = e.ang.band ∧ t.scn = e.scn) ∧
      (ends = true → t.ang.prevIndex = some e.tb) ∧
      (ends = true → e.ang.prevIndex = none → t.ang.tm = e.ang.tm ∧ t.ang.band = e.ang.band ∧
        t.scn = (if e.scn.state = .armed then { e.scn with inBand := 0 } else e.scn)) ∧
      (∀ (t0 : Time) (off : Nat), ends = true → e.ang.prevIndex = some t0 →
        off = (((e.tb - t0).toNat : Int) - (e.scn.params.nominalMs * 256000000 : Nat)).natAbs →
        t.ang.tm = some (e.tb - t0) ∧
        (e.scn.params.toleranceUs * 256000 < off → t.ang.band = .outOfBand ∧
          (e.scn.state = .armed → t.scn = { e.scn with inBand := 0 }) ∧
          (e.scn.state = .running → t.scn.state = .fault ∧ t.scn.cause = some .mirrorBand ∧ t.scn.laser = false) ∧
          (e.scn.state = .idle ∨ e.scn.state = .draining ∨ e.scn.state = .fault → t.scn = e.scn)) ∧
        (off ≤ e.scn.params.toleranceUs * 256000 → t.ang.band = .inBand ∧
          (e.scn.state = .armed → e.eca.link = .down → t.scn = { e.scn with inBand := 0 }) ∧
          (e.scn.state = .armed → e.eca.link = .up → e.scn.inBand = 0 → t.scn = { e.scn with inBand := 1 }) ∧
          (e.scn.state ≠ .armed → t.scn = e.scn)))

/-- A counted backward mirror edge is a band loss: the band is OUT, the previous index time absent, Tm kept; a RUNNING scan
faults with MIRROR REVERSE and an ARMED one counts from 0. -/
def Statement.ReverseEdge : Prop :=
  ∀ (dt : Nat) (active : Bool) (s e : State), e = s.elapse dt →
    ∃ t : State, exec (.quadratureEdge dt .mirror .backward active) s = .next t ∧
      t.ang.band = .outOfBand ∧ t.ang.prevIndex = none ∧ t.ang.tm = e.ang.tm ∧
      t.ang.counters.mirrorBandLosses = bump e.ang.counters.mirrorBandLosses 1 ∧
      (e.scn.state = .running → t.scn.state = .fault ∧ t.scn.cause = some .mirrorReverse ∧ t.scn.laser = false) ∧
      (e.scn.state = .armed → t.scn = { e.scn with inBand := 0 }) ∧
      (e.scn.state = .idle ∨ e.scn.state = .draining ∨ e.scn.state = .fault → t.scn = e.scn)

/-- Quadrature errors, and what the speed monitor makes of mirror edges and of the stall timer. -/
def Obligations.QuadratureAndSpeedMonitor : Prop :=
  Statement.QuadratureError ∧ Statement.StallExpiry ∧ Statement.RevolutionEnds ∧ Statement.ReverseEdge

/-- An instant before the oldest record is held at that record, a single record at itself, whatever the instant: raw is its
count times 1,024 au on the mirror and 256 on the azimuth. With no record raw is 0. A mirror answer then carries STALE. -/
def Obligations.HeldAngles : Prop :=
  ∀ (g : Ang) (mirrorZero : Nat) (tp : Time) (r r' : EdgeRec) (h : List EdgeRec),
    (tp.toNat < r.time.toNat →
      rawAngle .mirror (r :: r' :: h) tp = ⟨BitVec.ofNat 24 (r.count * 1024), some r.turn, [r], false, true⟩ ∧
      (rawAngle .azimuth (r :: r' :: h) tp).raw = BitVec.ofNat 24 (r.count * 256)) ∧
    (rawAngle .mirror [r] tp = ⟨BitVec.ofNat 24 (r.count * 1024), some r.turn, [r], false, true⟩ ∧
      (rawAngle .azimuth [r] tp).raw = BitVec.ofNat 24 (r.count * 256)) ∧
    (rawAngle .mirror [] tp = ⟨0, none, [], false, true⟩ ∧ (rawAngle .azimuth [] tp).raw = 0) ∧
    ((g.mirror.history = [] ∨ g.mirror.history = [r] ∨ (g.mirror.history = r :: r' :: h ∧ tp.toNat < r.time.toNat)) →
      (g.mirrorQuery mirrorZero tp).stale = true)

/-- Between two records of a history in time order the raw angle is interpolated, `u` au per count (1,024 on the mirror, 256
on the azimuth): the fraction is rounded half up and has the direction of the later record. The revolution is the earlier
record's, and neither flag is set. -/
def Statement.AngleBetweenRecords : Prop :=
  ∀ (axis : Axis) (h before after : List EdgeRec) (e0 e1 : EdgeRec) (tp : Time) (u t0 t1 f : Nat),
    h = before ++ e0 :: e1 :: after → h.Pairwise (fun a b => a.time.toNat < b.time.toNat) →
    t0 = e0.time.toNat → t1 = e1.time.toNat → t0 ≤ tp.toNat → tp.toNat < t1 →
    (axis = .mirror → u = 1024) → (axis = .azimuth → u = 256) →
    f = (2 * ((tp.toNat - t0) * u) + (t1 - t0)) / (2 * (t1 - t0)) →
    rawAngle axis h tp = ⟨BitVec.ofInt 24 ((e0.count * u : Nat) + (if e1.dir = .forward then (f : Int) else -(f : Int))),
      some e0.turn, [e0, e1], false, false⟩

/-- At or after the newest record the mirror is extrapolated from the newest two, short of the next count, with the newest
one's revolution and EXTRAPOLATED. The azimuth is too, but is held at the newest record when the two lie, or the instant lies,
more than 100 ms apart. Times are ordered as 64-bit counts, so that an instant before a wrap whose records all come after it
is among these (the model's choice, log 33). -/
def Statement.AngleBeyondTheNewest : Prop :=
  ∀ (h before : List EdgeRec) (e0 e1 : EdgeRec) (tp : Time) (t0 t1 : Nat) (f : Nat → Int),
    h = before ++ [e0, e1] → h.Pairwise (fun a b => a.time.toNat < b.time.toNat) →
    t0 = e0.time.toNat → t1 = e1.time.toNat → t1 ≤ tp.toNat →
    (∀ u, f u = (if e1.dir = .forward then 1 else -1) *
      ((min ((2 * ((tp.toNat - t1) * u) + (t1 - t0)) / (2 * (t1 - t0))) (u - 1) : Nat) : Int)) →
    rawAngle .mirror h tp = ⟨BitVec.ofInt 24 ((e1.count * 1024 : Nat) + f 1024), some e1.turn, [e0, e1], true, false⟩ ∧
    (25600000000 < t1 - t0 ∨ 25600000000 < tp.toNat - t1 →
      (rawAngle .azimuth h tp).raw = BitVec.ofNat 24 (e1.count * 256)) ∧
    (t1 - t0 ≤ 25600000000 → tp.toNat - t1 ≤ 25600000000 →
      (rawAngle .azimuth h tp).raw = BitVec.ofInt 24 ((e1.count * 256 : Nat) + f 256))

/-- A mirror answer: the raw angle corrected by the table, interpolated between the two entries about it, less the mirror
zero; the revolution of the record it was computed from, or the mirror's own; the flags; SUSPECT when the mark names the
revolution of a record used. An azimuth answer is the raw angle. -/
def Statement.MirrorAnswerGiven : Prop :=
  ∀ (g : Ang) (mirrorZero : Nat) (tp : Time) (x : RawAnswer) (segment offset : Nat) (e0 e1 corr : Int),
    x = rawAngle .mirror g.mirror.history tp → segment = x.raw.toNat / 65536 → offset = x.raw.toNat % 65536 →
    e0 = (g.calibration.getD segment 0).toInt → e1 = (g.calibration.getD ((segment + 1) % 256) 0).toInt →
    corr = e0 + (2 * ((e1 - e0) * offset) + 65536) / 131072 →
    (g.mirrorQuery mirrorZero tp).m = BitVec.ofInt 24 (x.raw.toNat + corr - mirrorZero) ∧
    (∀ r, x.revolution = some r → (g.mirrorQuery mirrorZero tp).revolution = r) ∧
    (x.revolution = none → (g.mirrorQuery mirrorZero tp).revolution = g.mirror.turn) ∧
    (g.mirrorQuery mirrorZero tp).extrapolated = x.extrapolated ∧ (g.mirrorQuery mirrorZero tp).stale = x.stale ∧
    ((g.mirrorQuery mirrorZero tp).suspect = true ↔ ∃ r, g.suspect = some r ∧ ∃ y ∈ x.used, y.turn = r) ∧
    g.azimuthQuery tp = (rawAngle .azimuth g.azimuth.history tp).raw

/-- The angle at an instant: interpolation, extrapolation with its clamp and the azimuth hold, calibration and flags. -/
def Obligations.AnglesAtAnInstant : Prop :=
  Statement.AngleBetweenRecords ∧ Statement.AngleBeyondTheNewest ∧ Statement.MirrorAnswerGiven

/-! ### Pulses and echoes (chapter 2) -/

/-- Ranging link training and loss. The count sent at training is kept (the model's field, log 19). A loss is the last
ranging fault, counts, raises RANGING, and faults a RUNNING or DRAINING scan. -/
def Statement.RangingLink : Prop :=
  (∀ (dt : Nat) (s e : State), e = s.elapse dt → e.eca.link = .down →
    exec (.rangingLinkUp dt) s = .next { e with eca := { e.eca with link := .up, countSent := some e.tb } }) ∧
  (∀ (dt : Nat) (s e : State), e = s.elapse dt → e.eca.link = .up →
    ∃ t : State, exec (.rangingLinkLoss dt) s = .next t ∧
      t.eca.link = .down ∧ t.eca.lastFault = some .link ∧
      t.eca.counters.rangingLinkLosses = bump e.eca.counters.rangingLinkLosses 1 ∧ raisedEverywhere evRanging t ∧
      (e.scn.state = .running ∨ e.scn.state = .draining →
        t.scn.state = .fault ∧ t.scn.cause = some .rangingLink ∧ t.scn.laser = false ∧ t.scn.drain = none ∧
        t.eca.history = [] ∧ t.lnb.openLine = none) ∧
      (e.scn.state = .idle ∨ e.scn.state = .armed ∨ e.scn.state = .fault → t.scn = e.scn ∧ t.eca.history = e.eca.history) ∧
      t.tb = e.tb ∧ t.ang = e.ang ∧ t.exs = e.exs ∧ t.pending = e.pending)

/-- A FAULT record counts, is the last ranging fault and raises RANGING in every scan state; in RUNNING the scan faults
with its code. -/
def Statement.FaultRecordTaken : Prop :=
  ∀ (dt : Nat) (code : Byte) (s e : State), e = s.elapse dt → e.eca.link = .up →
    ∃ t : State, exec (.faultRecord dt code) s = .next t ∧
      t.eca.counters.rangingFaultRecords = bump e.eca.counters.rangingFaultRecords 1 ∧
      t.eca.lastFault = some (.record code) ∧ t.eca.link = .up ∧ raisedEverywhere evRanging t ∧
      (e.scn.state = .running → t.scn.state = .fault ∧ t.scn.cause = some (.rangingRecord code) ∧ t.scn.laser = false) ∧
      (e.scn.state ≠ .running → t.scn = e.scn ∧ t.eca.history = e.eca.history) ∧
      t.tb = e.tb ∧ t.ang = e.ang ∧ t.exs = e.exs ∧ t.pending = e.pending

/-- The ranging link, and a FAULT record on it. -/
def Obligations.RangingLinkAndFaultRecord : Prop :=
  Statement.RangingLink ∧ Statement.FaultRecordTaken

/-- An EMIT whose time is not after the previous EMIT's is discarded: EMIT FAULTS increments, RANGING is raised, and
neither the history nor the previous EMIT changes. With the previous EMIT absent the time test is passed, and an EMIT that
passes it is later than every record of a history that keeps its form. -/
def Obligations.EmitNotLaterIsDiscarded : Prop :=
  ∀ (dt : Nat) (id : BitVec 16) (time : Time) (s e : State), e = s.elapse dt → e.eca.link = .up →
    e.scn.state = .running →
    (∀ q, e.eca.prevEmit = some q → time.toNat ≤ q.time.toNat →
      ∃ t : State, exec (.emit dt id time) s = .next t ∧
        t.eca = { e.eca with counters := { e.eca.counters with emitFaults := bump e.eca.counters.emitFaults 1 } } ∧
        raisedEverywhere evRanging t ∧ SameScan { e with eca := t.eca } t ∧ t.exs = e.exs ∧ SamePorts e t) ∧
    (e.eca.prevEmit = none → ∃ t : State, exec (.emit dt id time) s = .next t ∧ t.eca.prevEmit = some ⟨id, time⟩ ∧
      t.eca.counters.emitFaults = e.eca.counters.emitFaults) ∧
    (PulseInv e → (∀ q, e.eca.prevEmit = some q → q.time.toNat < time.toNat) →
      ∀ r ∈ e.eca.history, r.time.toNat < time.toNat)

/-- An EMIT in sequence or after a gap is entered: pulses left behind by more than the zone close, records at distance 16
or more leave, the new pulse is OPEN with no echo, and it is the previous EMIT. -/
def Statement.EmitEntered : Prop :=
  ∀ (dt : Nat) (id : BitVec 16) (time : Time) (s e : State), e = s.elapse dt → e.eca.link = .up →
    e.scn.state = .running →
    (e.eca.prevEmit = none ∨ ∃ q, e.eca.prevEmit = some q ∧ q.time.toNat < time.toNat ∧
      1 ≤ (id - q.id).toNat ∧ (id - q.id).toNat ≤ 32768) →
    ∃ t : State, exec (.emit dt id time) s = .next t ∧
      t.eca.history = (e.eca.history.map (fun r =>
          if decide (r.state = .isOpen) && decide (e.scn.params.zone < (id - r.id).toNat) then { r with state := .isClosed }
          else r)).filter (fun r => decide ((id - r.id).toNat < 16))
        ++ [⟨id, time, .isOpen, [], false, false⟩] ∧
      t.eca.prevEmit = some ⟨id, time⟩ ∧
      (∀ q, e.eca.prevEmit = some q → 2 ≤ (id - q.id).toNat →
        t.eca.counters.pulseGaps = bump e.eca.counters.pulseGaps ((id - q.id).toNat - 1)) ∧
      t.tb = e.tb ∧ t.scn = e.scn ∧ t.ang.mirror = e.ang.mirror ∧ t.ang.azimuth = e.ang.azimuth ∧ t.exs = e.exs ∧
      SamePorts e t ∧ t.pending = e.pending

/-- An EMIT later than the previous one with its id is a repeated id: it counts as an EMIT fault, raises RANGING and changes
neither the history nor the previous EMIT. -/
def Statement.RepeatedId : Prop :=
  ∀ (dt : Nat) (time : Time) (q : PrevEmit) (s e : State), e = s.elapse dt → e.eca.link = .up → e.scn.state = .running →
    e.eca.prevEmit = some q → q.time.toNat < time.toNat →
    exec (.emit dt q.id time) s = .next (State.settle (({ e with eca := { e.eca with
      counters := { e.eca.counters with emitFaults := bump e.eca.counters.emitFaults 1 } } } : State).raiseAll evRanging))

/-- An EMIT whose id steps by more than 32,768 is an id break: it counts, raises RANGING, closes every OPEN pulse in history
order and begins a new history with itself. -/
def Statement.IdBreak : Prop :=
  ∀ (dt : Nat) (id : BitVec 16) (time : Time) (q : PrevEmit) (s e base t : State), e = s.elapse dt → e.eca.link = .up →
    e.scn.state = .running → e.eca.prevEmit = some q → q.time.toNat < time.toNat → 32768 < (id - q.id).toNat →
    base = ({ e with eca := { e.eca with counters := { e.eca.counters with
      idBreaks := bump e.eca.counters.idBreaks 1 } } } : State).raiseAll evRanging →
    t = (e.eca.history.filter (fun r => decide (r.state = .isOpen))).foldl State.closePulse base →
    exec (.emit dt id time) s = .next (State.settle { t with eca := { t.eca with
      history := [⟨id, time, .isOpen, [], false, false⟩], prevEmit := some ⟨id, time⟩ } })

/-- Outside RUNNING an EMIT is discarded and counts, with no change to the history. -/
def Statement.EmitOutsideRunning : Prop :=
  ∀ (dt : Nat) (id : BitVec 16) (time : Time) (s e : State), e = s.elapse dt → e.eca.link = .up →
    e.scn.state ≠ .running →
    exec (.emit dt id time) s = .next (State.settle { e with eca := { e.eca with
      counters := { e.eca.counters with emitFaults := bump e.eca.counters.emitFaults 1 } } })

/-- An EMIT entered in RUNNING, a repeated id, an id break, and an EMIT discarded outside RUNNING. -/
def Obligations.EmitTaken : Prop :=
  Statement.EmitEntered ∧ Statement.RepeatedId ∧ Statement.IdBreak ∧ Statement.EmitOutsideRunning

/-- A zone-0 echo of an OPEN pulse in RUNNING or DRAINING whose range is in the window and above the last kept one, under a
policy that does not drop it, is appended with its range and flags, and only that pulse changes. -/
def Statement.EchoKept : Prop :=
  ∀ (dt : Nat) (ref : BitVec 16) (d : BitVec 28) (amp : BitVec 16) (width : BitVec 8) (sat : Bool) (s e : State)
    (before after : List PulseRec) (x : PulseRec) (r : Nat) (near far weak : Bool), e = s.elapse dt → e.eca.link = .up →
    (e.scn.state = .running ∨ e.scn.state = .draining) → e.scn.params.zone = 0 →
    e.eca.history = before ++ x :: after → (∀ y ∈ before, y.id ≠ ref) → (∀ y ∈ after, y.id ≠ ref) → x.id = ref →
    x.state = .isOpen → x.echoes.length < 4 → (∀ y ∈ x.echoes, y.range.toNat < r) →
    weak = decide (amp.toNat < e.scn.params.weakThreshold) →
    (e.scn.params.rangeOffset < d.toNat →
      r = min ((2 * ((d.toNat - e.scn.params.rangeOffset) * e.scn.params.rangeScale) + 1048576) / 2097152) 16777215) →
    (d.toNat ≤ e.scn.params.rangeOffset → r = 0) →
    near = decide (d.toNat ≤ e.scn.params.rangeOffset) →
    far = (!near && decide (16777215 <
      (2 * ((d.toNat - e.scn.params.rangeOffset) * e.scn.params.rangeScale) + 1048576) / 2097152)) →
    e.scn.params.nearLimit ≤ r → r ≤ e.scn.params.farLimit →
    (e.scn.params.qualityPolicy = .drop → weak = false ∧ sat = false) →
    exec (.echo dt ref d amp width sat) s = .next { e with eca := { e.eca with history := before ++ { x with
      echoes := x.echoes ++ [⟨BitVec.ofNat 24 r, amp, width, near, far, weak, sat⟩]
      quality := x.quality || (decide (e.scn.params.qualityPolicy = .report) && (weak || sat)) } :: after } }

/-- An echo of an OPEN target in any zone, in RUNNING or DRAINING. Its delay counts from the target's emission and its range
from that; it is outside the range window, or dropped for quality, or not beyond the last kept echo (RANGING), or one too many
(the target is marked), or kept, and only its target or one counter changes. -/
def Statement.EchoJudged : Prop :=
  ∀ (dt : Nat) (ref : BitVec 16) (d : BitVec 28) (amp : BitVec 16) (width : BitVec 8) (sat : Bool) (s e : State)
    (x y : PulseRec) (total q r : Nat) (near far weak : Bool), e = s.elapse dt → e.eca.link = .up →
    (e.scn.state = .running ∨ e.scn.state = .draining) →
    x ∈ e.eca.history → (∀ z ∈ e.eca.history, z.id = x.id → z = x) → x.id = ref - BitVec.ofNat 16 e.scn.params.zone →
    x.state = .isOpen → y ∈ e.eca.history → (∀ z ∈ e.eca.history, z.id = y.id → z = y) → y.id = ref →
    total = min (d.toNat + (y.time - x.time).toNat) 268435455 →
    q = (2 * ((total - e.scn.params.rangeOffset) * e.scn.params.rangeScale) + 1048576) / 2097152 →
    near = decide (total ≤ e.scn.params.rangeOffset) → far = (!near && decide (16777215 < q)) →
    r = (if near then 0 else min q 16777215) → weak = decide (amp.toNat < e.scn.params.weakThreshold) →
    (r < e.scn.params.nearLimit ∨ e.scn.params.farLimit < r →
      exec (.echo dt ref d amp width sat) s = .next { e with eca := { e.eca with counters := { e.eca.counters with
        outOfWindowEchoes := bump e.eca.counters.outOfWindowEchoes 1 } } }) ∧
    (e.scn.params.nearLimit ≤ r → r ≤ e.scn.params.farLimit → e.scn.params.qualityPolicy = .drop →
      weak = true ∨ sat = true →
      exec (.echo dt ref d amp width sat) s = .next { e with eca := { e.eca with counters := { e.eca.counters with
        qualityDrops := bump e.eca.counters.qualityDrops 1 } } }) ∧
    (e.scn.params.nearLimit ≤ r → r ≤ e.scn.params.farLimit →
      (e.scn.params.qualityPolicy = .drop → weak = false ∧ sat = false) →
      (∀ z, x.echoes.getLast? = some z → r ≤ z.range.toNat →
        exec (.echo dt ref d amp width sat) s = .next (({ e with eca := { e.eca with counters := { e.eca.counters with
          orderFaults := bump e.eca.counters.orderFaults 1 } } } : State).raiseAll evRanging)) ∧
      (∀ z, x.echoes.getLast? = some z → z.range.toNat < r → 4 ≤ x.echoes.length →
        exec (.echo dt ref d amp width sat) s = .next { e with eca := { e.eca with
          history := e.eca.history.map (fun p => if p.id = x.id then { p with overflow := true } else p)
          counters := { e.eca.counters with echoOverflows := bump e.eca.counters.echoOverflows 1 } } }) ∧
      ((∀ z, x.echoes.getLast? = some z → z.range.toNat < r) → x.echoes.length < 4 →
        exec (.echo dt ref d amp width sat) s = .next { e with eca := { e.eca with
          history := e.eca.history.map (fun p => if p.id = x.id then { p with
            echoes := p.echoes ++ [⟨BitVec.ofNat 24 r, amp, width, near, far, weak, sat⟩]
            quality := p.quality || (decide (e.scn.params.qualityPolicy = .report) && (weak || sat)) } else p) } }))

/-- An echo outside RUNNING and DRAINING, or one whose reference or target is not in the history, or whose target is CLOSED,
is an orphan: it counts and changes nothing else. The target is the pulse as many ids before the reference as the zone. -/
def Statement.OrphanEcho : Prop :=
  ∀ (dt : Nat) (ref : BitVec 16) (d : BitVec 28) (amp : BitVec 16) (width : BitVec 8) (sat : Bool) (s e : State)
    (target : BitVec 16), e = s.elapse dt → e.eca.link = .up → target = ref - BitVec.ofNat 16 e.scn.params.zone →
    (e.scn.state = .idle ∨ e.scn.state = .armed ∨ e.scn.state = .fault ∨ (∀ y ∈ e.eca.history, y.id ≠ ref) ∨
      (∀ y ∈ e.eca.history, y.id ≠ target) ∨
      (∃ before after x, e.eca.history = before ++ x :: after ∧ (∀ y ∈ before, y.id ≠ target) ∧ x.id = target ∧
        x.state = .isClosed)) →
    exec (.echo dt ref d amp width sat) s = .next { e with eca := { e.eca with
      counters := { e.eca.counters with orphanEchoes := bump e.eca.counters.orphanEchoes 1 } } }

/-- An echo kept at zone 0, an echo judged in any zone, and an orphan. -/
def Obligations.EchoTaken : Prop :=
  Statement.EchoKept ∧ Statement.EchoJudged ∧ Statement.OrphanEcho

/-- A pulse that closes forms a point with its two angles at the emission time, the flags of the mirror answer, ECHO OVERFLOW,
NO RETURN for no echo, its echoes and no colour, and hands it to LNB with the revolution, the emission time and the quality
mark; under the no-return policy DROP a point with no echo is counted instead. EXTRAPOLATED and STALE answers count. -/
def Statement.PointFormed : Prop :=
  ∀ (s : State) (r : PulseRec) (x : MirrorAnswer) (p : Point) (g : Ang),
    x = s.ang.mirrorQuery s.scn.params.mirrorZero r.time →
    p = { m := x.m, a := s.ang.azimuthQuery r.time, echoes := r.echoes
          flags := ⟨x.extrapolated, x.stale, x.suspect, r.overflow, decide (r.echoes = []), false⟩
          colourState := .absent, colour := ⟨0, 0, 0⟩, colourTag := 0 } →
    g = { s.ang with counters := { s.ang.counters with
      extrapolatedAngles := bump s.ang.counters.extrapolatedAngles (if x.extrapolated then 1 else 0)
      staleAngles := bump s.ang.counters.staleAngles (if x.stale then 1 else 0) } } →
    (r.echoes ≠ [] ∨ s.scn.params.noReturnPolicy = .keep →
      s.closePulse r = ({ s with ang := g } : State).takePoint ⟨p, x.revolution, r.time, r.quality⟩) ∧
    (r.echoes = [] → s.scn.params.noReturnPolicy = .drop → s.closePulse r = { s with
      ang := g
      eca := { s.eca with counters := { s.eca.counters with noReturnDrops := bump s.eca.counters.noReturnDrops 1 } } })

/-- An EMIT that is entered first closes the OPEN pulses farther below it than the zone, in history order; a gap counts the
ids skipped. Records at distance 16 or more then leave and the new pulse is appended. -/
def Statement.EmitClosesPulses : Prop :=
  ∀ (dt : Nat) (id : BitVec 16) (time : Time) (s e base t : State), e = s.elapse dt → e.eca.link = .up →
    e.scn.state = .running →
    ((e.eca.prevEmit = none ∧ base = e) ∨ ∃ q, e.eca.prevEmit = some q ∧ q.time.toNat < time.toNat ∧
      (((id - q.id).toNat = 1 ∧ base = e) ∨ (2 ≤ (id - q.id).toNat ∧ (id - q.id).toNat ≤ 32768 ∧
        base = { e with eca := { e.eca with counters := { e.eca.counters with
          pulseGaps := bump e.eca.counters.pulseGaps ((id - q.id).toNat - 1) } } }))) →
    t = (e.eca.history.filter (fun r => decide (r.state = .isOpen) &&
      decide (e.scn.params.zone < (id - r.id).toNat))).foldl State.closePulse base →
    exec (.emit dt id time) s = .next (State.settle { t with eca := { t.eca with
      history := (e.eca.history.map (fun r =>
          if decide (r.state = .isOpen) && decide (e.scn.params.zone < (id - r.id).toNat) then { r with state := .isClosed }
          else r)).filter (fun r => decide ((id - r.id).toNat < 16)) ++ [⟨id, time, .isOpen, [], false, false⟩]
      prevEmit := some ⟨id, time⟩ } })

/-- At the drain's end every OPEN pulse closes, in history order, and then LNB takes the drain mark: the line the points left
open closes, its close notice behind them, and the spent revolution is absent. -/
def Statement.DrainClosesPulses : Prop :=
  ∀ (dt : Nat) (r : TimerRun) (s e t : State), e = s.elapse dt → e.scn.state = .draining → e.scn.drain = some r →
    r.length ≤ (e.tb - r.start).toNat →
    t = (e.eca.history.filter (fun x => decide (x.state = .isOpen))).foldl State.closePulse e →
    ∃ u : State, exec (.drainTimerExpiry dt) s = .next u.settle ∧ u.ang = t.ang ∧
      u.eca = { t.eca with history := [], prevEmit := none } ∧
      u.lnb.openLine = none ∧ u.lnb.spent = none ∧ u.lnb.lineCounter = t.lnb.lineCounter ∧ u.lnb.counters = t.lnb.counters ∧
      (t.lnb.openLine = none → u.lnb.fifo = t.lnb.fifo) ∧
      (∀ h, t.lnb.openLine = some h → u.lnb.fifo = t.lnb.fifo ++ [.closeNotice h.lineNumber h])

/-- The point a closing pulse forms, and which pulses an EMIT and the drain's end close. -/
def Obligations.PulseCloses : Prop :=
  Statement.PointFormed ∧ Statement.EmitClosesPulses ∧ Statement.DrainClosesPulses

/-! ### Scan control (chapter 3) -/

/-- SCAN START, from the CONTROL role, in IDLE arms the scan; in any other state it is refused STATE, and from any other
role ROLE. -/
def Statement.ScanStartCommand : Prop :=
  ∀ (dt : Nat) (p : PortId) (tag : Tag) (s e : State), e = s.elapse dt → e.ready p tag →
    (¬ e.isControl p → exec (.scanStart dt p tag) s = .next (e.refused p tag .role none)) ∧
    (e.isControl p → e.scn.state = .idle → exec (.scanStart dt p tag) s =
      .next (({ e.held p tag .scanStart [acceptedFrame tag] with scn := { e.scn with
        state := .armed
        session := e.scn.session + 1
        inBand := 0
        armed := some ⟨e.tb, e.scn.params.armedTimeoutMs * 256000000⟩
        startAz := none
        startReply := some ⟨p, tag⟩ } } : State).raiseAll evState)) ∧
    (e.isControl p → e.scn.state ≠ .idle → exec (.scanStart dt p tag) s = .next (e.refused p tag .state none))

/-- FAULT CLEAR: to the CONTROL role in FAULT, the scan is IDLE with DONE and STATE raised, the cause and the session
kept; in any other state it is refused STATE, and to any other role ROLE. -/
def Statement.FaultClearCommand : Prop :=
  ∀ (dt : Nat) (p : PortId) (tag : Tag) (s e : State), e = s.elapse dt → e.ready p tag →
    (e.isControl p → e.scn.state = .fault → exec (.faultClear dt p tag) s =
      .next (({ e.replied p tag .done with scn := { e.scn with state := .idle } } : State).raiseAll evState)) ∧
    (e.isControl p → e.scn.state ≠ .fault → exec (.faultClear dt p tag) s = .next (e.refused p tag .state none)) ∧
    (¬ e.isControl p → exec (.faultClear dt p tag) s = .next (e.refused p tag .role none))

/-- SCAN START and FAULT CLEAR. -/
def Obligations.ScanStartAndFaultClear : Prop :=
  Statement.ScanStartCommand ∧ Statement.FaultClearCommand

/-- SCAN STOP, from the CONTROL role, in each scan state; from any other role it is refused ROLE. -/
def Obligations.ScanStopCommand : Prop :=
  ∀ (dt : Nat) (p : PortId) (tag : Tag) (s e : State), e = s.elapse dt → e.ready p tag →
    (¬ e.isControl p → exec (.scanStop dt p tag) s = .next (e.refused p tag .role none)) ∧
    (e.isControl p → e.scn.state = .idle → exec (.scanStop dt p tag) s = .next (e.replied p tag .done)) ∧
    (e.isControl p → e.scn.state = .armed → ∃ t : State, exec (.scanStop dt p tag) s = .next t ∧
      t.scn = { e.scn with state := .idle, armed := none, inBand := 0, startReply := none } ∧
      (t.port p).outgoing.getLast? = some (replyFrame tag .done) ∧
      (∀ o, e.scn.startReply = some o → (t.port o.port).tags.get o.tag = none ∧
        ((e.port o.port).link = .up → checkFrame o.tag .aborted 0 ∈ (t.port o.port).outgoing)) ∧
      raisedEverywhere evState t ∧ t.tb = e.tb ∧ t.ang = e.ang ∧ t.eca = e.eca ∧ t.lnb = e.lnb ∧ t.rng = e.rng ∧
      t.exs = e.exs ∧ t.clr = e.clr ∧ t.str = e.str ∧ SamePorts e t ∧ t.pending = e.pending) ∧
    (e.isControl p → e.scn.state = .running → exec (.scanStop dt p tag) s =
      .next ({ (({ e with scn := { e.scn with
          state := .draining
          laser := false
          drain := some ⟨e.tb, e.scn.params.drainUs * 256000⟩
          stopReplies := e.scn.stopReplies ++ [⟨p, tag⟩] } } : State).held p tag .scanStop [acceptedFrame tag]) with
        atn := (e.raiseAll evState).atn })) ∧
    (e.isControl p → e.scn.state = .draining → exec (.scanStop dt p tag) s =
      .next { e.held p tag .scanStop [acceptedFrame tag] with
        scn := { e.scn with stopReplies := e.scn.stopReplies ++ [⟨p, tag⟩] } }) ∧
    (e.isControl p → e.scn.state = .fault → exec (.scanStop dt p tag) s = .next (e.refused p tag .state none))

/-- The ARMED timeout faults the scan with cause MIRROR BAND: LASER PERMIT off, timers stopped, pulses discarded, the open
line closed, the pending start ended CHECK FAULT, STATE and FAULT raised. The in-band count, which R55 does not name, is kept
(log 23). -/
def Statement.ArmedTimeout : Prop :=
  ∀ (dt : Nat) (r : TimerRun) (s e : State), e = s.elapse dt → e.scn.state = .armed → e.scn.armed = some r →
    r.length ≤ (e.tb - r.start).toNat →
    ∃ t : State, exec (.armedTimerExpiry dt) s = .next t ∧
      t.scn = { e.scn with
        state := .fault, cause := some .mirrorBand, laser := false, armed := none, drain := none, startReply := none,
        stopReplies := [] } ∧
      t.eca = { e.eca with history := [], prevEmit := none, counters := { e.eca.counters with
        pulsesDiscarded := bump e.eca.counters.pulsesDiscarded
          (e.eca.history.countP (fun x => decide (x.state = .isOpen))) } } ∧
      t.lnb.openLine = none ∧ t.lnb.spent = none ∧ t.lnb.lineCounter = e.lnb.lineCounter ∧
      (∀ o, e.scn.startReply = some o → (t.port o.port).tags.get o.tag = none ∧
        ((e.port o.port).link = .up →
          ∃ f ∈ (t.port o.port).outgoing, f.tag = o.tag ∧ f.body = .reply .check .fault 1)) ∧
      raisedEverywhere evState t ∧ raisedEverywhere evFault t ∧
      t.tb = e.tb ∧ t.ang = e.ang ∧ t.exs = e.exs ∧ SamePorts e t ∧ t.pending = e.pending

/-- The drain timer's expiry ends the drain: IDLE, the history empty, the open line closed, every pending stop ended DONE,
STATE raised. -/
def Statement.DrainExpiry : Prop :=
  ∀ (dt : Nat) (r : TimerRun) (s e : State), e = s.elapse dt → e.scn.state = .draining → e.scn.drain = some r →
    r.length ≤ (e.tb - r.start).toNat →
    ∃ t : State, exec (.drainTimerExpiry dt) s = .next t ∧
      t.scn = { e.scn with state := .idle, drain := none, stopReplies := [] } ∧
      t.eca.history = [] ∧ t.eca.prevEmit = none ∧ t.lnb.openLine = none ∧ t.lnb.spent = none ∧
      (∀ o ∈ e.scn.stopReplies, (t.port o.port).tags.get o.tag = none ∧
        ((e.port o.port).link = .up →
          ∃ f ∈ (t.port o.port).outgoing, f.tag = o.tag ∧ f.body = .reply .done .none 0)) ∧
      raisedEverywhere evState t ∧ t.tb = e.tb ∧ t.exs = e.exs ∧ t.ang.mirror = e.ang.mirror ∧
      t.ang.azimuth = e.ang.azimuth ∧ SamePorts e t ∧ t.pending = e.pending

/-- The expiries of the ARMED timer and of the drain timer. -/
def Obligations.ScanTimers : Prop :=
  Statement.ArmedTimeout ∧ Statement.DrainExpiry

/-- The second in-band revolution, ended by a forward index edge or a forward missed index, with the ranging link UP, brings an
ARMED scan to RUNNING: LASER PERMIT on, the timer stopped, the travel 0, the previous EMIT absent, the start azimuth taken at
that edge's time, the pending start ended DONE. -/
def Statement.EntryToRunning : Prop :=
  ∀ (dt : Nat) (active : Bool) (t0 : Time) (s e : State), e = s.elapse dt → e.scn.state = .armed → e.scn.inBand = 1 →
    e.eca.link = .up → ((active = true ∧ e.ang.mirror.armed = true) ∨
      (active = false ∧ e.ang.mirror.aligned = true ∧ e.ang.mirror.count = 16383)) → e.ang.prevIndex = some t0 →
    (((e.tb - t0).toNat : Int) - (e.scn.params.nominalMs * 256000000 : Nat)).natAbs ≤ e.scn.params.toleranceUs * 256000 →
    ∃ t : State, exec (.quadratureEdge dt .mirror .forward active) s = .next t ∧
      t.scn = { e.scn with
        state := .running, inBand := 0, armed := none, laser := true, startReply := none,
        startAz := some (e.ang.azimuthQuery e.tb) } ∧
      t.ang.travel = 0 ∧ t.ang.tm = some (e.tb - t0) ∧ t.ang.prevIndex = some e.tb ∧ t.ang.band = .inBand ∧
      t.eca = { e.eca with prevEmit := none } ∧ t.lnb.spent = none ∧ t.exs.periodic = e.exs.setup.interval ∧
      (∀ o, e.scn.startReply = some o → (t.port o.port).tags.get o.tag = none ∧
        ((e.port o.port).link = .up →
          ∃ f ∈ (t.port o.port).outgoing, f.tag = o.tag ∧ f.body = .reply .done .none 0)) ∧
      raisedEverywhere evState t ∧ t.tb = e.tb ∧ SamePorts e t ∧ t.pending = e.pending

/-- In RUNNING, an azimuth edge in either direction, at any level of the index input, that brings the travel's magnitude to a
non-zero span drains the scan; with a span not yet reached, or of 0, the scan's state stays. -/
def Statement.SpanEnd : Prop :=
  ∀ (dt : Nat) (dir : Dir) (active : Bool) (travel : BitVec 64) (s e : State), e = s.elapse dt → e.scn.state = .running →
    travel = (if dir = .forward then e.ang.travel + 1 else e.ang.travel - 1) →
    ∃ t : State, exec (.quadratureEdge dt .azimuth (if dir = .forward then .forward else .backward) active) s = .next t ∧
      (e.scn.params.azimuthSpan ≠ 0 → e.scn.params.azimuthSpan ≤ travel.toInt.natAbs * 256 →
        t.scn = { e.scn with
          state := .draining, laser := false, drain := some ⟨e.tb, e.scn.params.drainUs * 256000⟩ } ∧
        raisedEverywhere evState t) ∧
      (e.scn.params.azimuthSpan = 0 ∨ travel.toInt.natAbs * 256 < e.scn.params.azimuthSpan → t.scn = e.scn)

/-- Entry to RUNNING, and the end of the span. -/
def Obligations.EntryAndSpanEnd : Prop :=
  Statement.EntryToRunning ∧ Statement.SpanEnd

/-- RESTART: what each block does and keeps; the CHECK ABORTED of every command in flight, in ascending tag on each port, DONE
last on its own port; the sense record of a port holds the last of its aborted tags, and without one it stays, but for the
RESTART's own port, where taking the command cleared it. -/
def Obligations.RestartCommand : Prop :=
  ∀ (dt : Nat) (p : PortId) (tag : Tag) (s e : State), e = s.elapse dt → e.ready p tag → e.isControl p →
    ∃ t : State, exec (.restart dt p tag) s = .next t ∧
      t.tb = e.tb ∧
      t.ang = { e.ang with
        mirror := { e.ang.mirror with history := [] }
        azimuth := { e.ang.azimuth with history := [] }
        suspect := none
        prevIndex := none
        tm := none
        band := .unknown
        stall := some ⟨e.tb, e.scn.params.stallUs * 256000⟩
        travel := 0
        counters := ⟨0, 0, 0, 0, 0, 0, 0⟩ } ∧
      t.eca.history = [] ∧ t.eca.prevEmit = none ∧ t.eca.lastFault = none ∧ t.eca.link = e.eca.link ∧
      t.scn = { e.scn with
        state := .idle, inBand := 0, armed := none, drain := none, cause := none, startAz := none, startReply := none,
        stopReplies := [], laser := false } ∧
      t.lnb.openLine = none ∧ t.lnb.fifo = [] ∧ t.lnb.spent = none ∧ t.lnb.mask = e.lnb.mask ∧
      t.lnb.lineCounter = e.lnb.lineCounter ∧ t.lnb.reports = [] ∧
      t.rng.committed = [] ∧ t.rng.closed = [] ∧ t.rng.openLine = none ∧ t.rng.discarding = none ∧ t.rng.lostCount = 0 ∧
      t.rng.lostBoundary = none ∧ t.rng.mode = .normal ∧ t.rng.run = 0 ∧ t.rng.lastRR = .reader 3 ∧ t.rng.inProgress = none ∧
      t.exs.log = [] ∧ t.exs.stations = e.exs.stations ∧ t.exs.setup = e.exs.setup ∧ t.exs.idCounter = e.exs.idCounter ∧
      t.exs.nextStation = 0 ∧ t.exs.periodic = e.exs.setup.interval ∧
      t.clr.slots = [] ∧ t.clr.sectors = List.replicate 64 [] ∧ t.clr.colourQueue = [] ∧ t.clr.backfillQueue = [] ∧
      t.clr.pendingList = [] ∧ t.clr.pass = none ∧ t.clr.work = none ∧ t.clr.sweepMark = false ∧ t.clr.loader = [] ∧
      (∀ q, (t.stream q).isOpen = false ∧ (t.stream q).mode = (e.stream q).mode ∧
        (t.stream q).readPoint = (e.stream q).readPoint ∧ (t.stream q).releasePoint = (e.stream q).releasePoint ∧
        ((e.stream q).isOpen = true → (t.stream q).table = [] ∧ (t.stream q).unsure = none ∧
          (t.stream q).read = none ∧ (t.stream q).essential = false)) ∧
      (∀ q, (t.port q).tags = Quad.all none ∧ (t.port q).link = (e.port q).link ∧ (t.port q).role = (e.port q).role) ∧
      (∀ q x, (e.port q).tags.get x ≠ none → (e.port q).link = .up →
        checkFrame x .aborted 0 ∈ (t.port q).outgoing) ∧
      (∀ (q : PortId) (busy : List Tag), busy = ([0, 1, 2, 3] : List Tag).filter (fun x => ((e.port q).tags.get x).isSome) →
        ((e.port q).link = .up → (t.port q).outgoing =
          (e.port q).outgoing.map (fun f => if f.tag ∈ busy then { f with finished := true } else f) ++
            busy.map (fun x => checkFrame x .aborted 0) ++ (if q = p then [replyFrame tag .done] else [])) ∧
        (∀ x, busy.getLast? = some x → (t.port q).sense = senseOf x .aborted 0 none) ∧
        (busy = [] → (t.port q).sense = if q = p then ⟨.none, 0, 0, false, 0⟩ else (e.port q).sense)) ∧
      (t.port p).outgoing.getLast? = some (replyFrame tag .done) ∧
      (∀ q, t.atn.get q = ({ e.atn.get q with pending := 0, double := 0, held := 0 } : Atn).raise evState (e.port q).link) ∧
      (∀ n ∈ t.counters, n = 0) ∧ t.pending = e.pending

/-! ### Commands with counts and data blocks (R15, R45, R76, R101, R103, R171, R192) -/

/-- A count above the largest one is refused ARG with the operand's number: 32 for MASK LOAD, 64 for STATION LOAD,
EXPOSURES READ and LINES READ. -/
def Statement.CountTooLargeRefused : Prop :=
  ∀ (dt : Nat) (p : PortId) (tag : Tag) (count : Byte) (s e : State), e = s.elapse dt → e.ready p tag →
    (e.isControl p → 32 < count.toNat → exec (.maskLoad dt p tag false count) s = .next (e.refused p tag .arg (some 1))) ∧
    (e.isImaging p → 64 < count.toNat →
      exec (.stationLoad dt p tag false count) s = .next (e.refused p tag .arg (some 1))) ∧
    (64 < count.toNat → ∀ after, exec (.exposuresRead dt p tag after count) s = .next (e.refused p tag .arg (some 2))) ∧
    (64 < count.toNat → exec (.linesRead dt p tag count) s = .next (e.refused p tag .arg (some 1)))

/-- Outside IDLE, SCAN SETUP, MIRROR CALIBRATE, CAMERA SETUP, MASK LOAD and STATION LOAD are refused STATE, the two loads with
EMPTY set or with any legal count. -/
def Statement.SetupOutsideIdleRefused : Prop :=
  ∀ (dt : Nat) (p : PortId) (tag : Tag) (empty : Bool) (count : Byte) (s e : State), e = s.elapse dt → e.ready p tag →
    e.scn.state ≠ .idle →
    (e.isControl p → exec (.scanSetup dt p tag) s = .next (e.refused p tag .state none) ∧
      exec (.mirrorCalibrate dt p tag) s = .next (e.refused p tag .state none) ∧
      exec (.cameraSetup dt p tag) s = .next (e.refused p tag .state none) ∧
      (empty = true ∨ count.toNat ≤ 32 →
        exec (.maskLoad dt p tag empty count) s = .next (e.refused p tag .state none))) ∧
    (e.isImaging p → exec (.cameraSetup dt p tag) s = .next (e.refused p tag .state none) ∧
      (empty = true ∨ count.toNat ≤ 64 →
        exec (.stationLoad dt p tag empty count) s = .next (e.refused p tag .state none)))

/-- In IDLE, each of the five is answered BUSY while a like command is in flight on any port, the two loads with EMPTY set
too. -/
def Statement.LikeCommandBusy : Prop :=
  ∀ (dt : Nat) (p : PortId) (tag : Tag) (empty : Bool) (count : Byte) (s e : State), e = s.elapse dt → e.ready p tag →
    e.scn.state = .idle →
    (e.isControl p → (∃ q x b, (e.port q).tags.get x = some (.scanSetup b)) →
      exec (.scanSetup dt p tag) s = .next (e.replied p tag .busy)) ∧
    (e.isControl p → (∃ q x b, (e.port q).tags.get x = some (.mirrorCalibrate b)) →
      exec (.mirrorCalibrate dt p tag) s = .next (e.replied p tag .busy)) ∧
    (e.isControl p ∨ e.isImaging p → (∃ q x b, (e.port q).tags.get x = some (.cameraSetup b)) →
      exec (.cameraSetup dt p tag) s = .next (e.replied p tag .busy)) ∧
    (e.isControl p → empty = true ∨ count.toNat ≤ 32 → (∃ q x n b, (e.port q).tags.get x = some (.maskLoad n b)) →
      exec (.maskLoad dt p tag empty count) s = .next (e.replied p tag .busy)) ∧
    (e.isImaging p → empty = true ∨ count.toNat ≤ 64 → (∃ q x n b, (e.port q).tags.get x = some (.stationLoad n b)) →
      exec (.stationLoad dt p tag empty count) s = .next (e.replied p tag .busy))

/-- In IDLE, with no like command in flight on any port, the five gathering commands take their tag with no byte gathered
and no reply. -/
def Statement.GatheringBegins : Prop :=
  ∀ (dt : Nat) (p : PortId) (tag : Tag) (s e : State), e = s.elapse dt → e.ready p tag → e.scn.state = .idle →
    (e.isControl p → (∀ q x b, (e.port q).tags.get x ≠ some (.scanSetup b)) →
      exec (.scanSetup dt p tag) s = .next (e.held p tag (.scanSetup []) [])) ∧
    (e.isControl p → (∀ q x b, (e.port q).tags.get x ≠ some (.mirrorCalibrate b)) →
      exec (.mirrorCalibrate dt p tag) s = .next (e.held p tag (.mirrorCalibrate []) [])) ∧
    (e.isControl p ∨ e.isImaging p → (∀ q x b, (e.port q).tags.get x ≠ some (.cameraSetup b)) →
      exec (.cameraSetup dt p tag) s = .next (e.held p tag (.cameraSetup []) [])) ∧
    (∀ count : Byte, e.isControl p → count.toNat ≤ 32 → (∀ q x n b, (e.port q).tags.get x ≠ some (.maskLoad n b)) →
      exec (.maskLoad dt p tag false count) s =
        .next (e.held p tag (.maskLoad (if count.toNat = 0 then 32 else count.toNat) []) [])) ∧
    (∀ count : Byte, e.isImaging p → count.toNat ≤ 64 → (∀ q x n b, (e.port q).tags.get x ≠ some (.stationLoad n b)) →
      exec (.stationLoad dt p tag false count) s =
        .next (e.held p tag (.stationLoad (if count.toNat = 0 then 64 else count.toNat) []) []))

/-- MASK LOAD and STATION LOAD with EMPTY set, in IDLE and with no like command in flight, empty their list at once,
whatever the count. -/
def Statement.EmptyLoads : Prop :=
  ∀ (dt : Nat) (p : PortId) (tag : Tag) (count : Byte) (s e : State), e = s.elapse dt → e.ready p tag →
    e.scn.state = .idle →
    (e.isControl p → (∀ q x n b, (e.port q).tags.get x ≠ some (.maskLoad n b)) →
      exec (.maskLoad dt p tag true count) s =
        .next { e.replied p tag .done with lnb := { e.lnb with mask := [] } }) ∧
    (e.isImaging p → (∀ q x n b, (e.port q).tags.get x ≠ some (.stationLoad n b)) →
      exec (.stationLoad dt p tag true count) s =
        .next { e.replied p tag .done with exs := { e.exs with stations := [], nextStation := 0 } })

/-- The commands with counts and data blocks: refused by their count or by the scan state, BUSY, or taken. -/
def Obligations.LoadsTaken : Prop :=
  Statement.CountTooLargeRefused ∧ Statement.SetupOutsideIdleRefused ∧ Statement.LikeCommandBusy ∧
    Statement.GatheringBegins ∧ Statement.EmptyLoads

/-- Short of their last byte the gathering commands, and the descriptor of a TILE LOAD, take what has arrived. -/
def Statement.StillGathering : Prop :=
  ∀ (dt : Nat) (p : PortId) (tag : Tag) (j j' : Job) (b payload : List Byte) (s e : State), e = s.elapse dt →
    (e.port p).link = .up → 1 ≤ payload.length → payload.length ≤ 1024 → (e.port p).tags.get tag = some j →
    ((j = .scanSetup b ∧ j' = .scanSetup (b ++ payload) ∧ (b ++ payload).length < 64) ∨
      (j = .mirrorCalibrate b ∧ j' = .mirrorCalibrate (b ++ payload) ∧ (b ++ payload).length < 512) ∨
      (j = .cameraSetup b ∧ j' = .cameraSetup (b ++ payload) ∧ (b ++ payload).length < 32) ∨
      (∃ n, j = .maskLoad n b ∧ j' = .maskLoad n (b ++ payload) ∧ (b ++ payload).length < n * 16) ∨
      (∃ n, j = .stationLoad n b ∧ j' = .stationLoad n (b ++ payload) ∧ (b ++ payload).length < n * 4) ∨
      (∃ ops, j = .tileDescriptor ops b ∧ j' = .tileDescriptor ops (b ++ payload) ∧ (b ++ payload).length < 12)) →
    exec (.dataOut dt p tag payload) s = .next (State.settle (e.withPort p
      { e.port p with tags := (e.port p).tags.set tag (some j') }))

/-- At their last byte outside IDLE the five gathering commands end refused STATE, with nothing taken. -/
def Statement.LastByteOutsideIdle : Prop :=
  ∀ (dt : Nat) (p : PortId) (tag : Tag) (j : Job) (b payload : List Byte) (s e : State), e = s.elapse dt →
    (e.port p).link = .up → 1 ≤ payload.length → payload.length ≤ 1024 → (e.port p).tags.get tag = some j →
    e.scn.state ≠ .idle →
    ((j = .scanSetup b ∧ 64 ≤ (b ++ payload).length) ∨ (j = .mirrorCalibrate b ∧ 512 ≤ (b ++ payload).length) ∨
      (j = .cameraSetup b ∧ 32 ≤ (b ++ payload).length) ∨ (∃ n, j = .maskLoad n b ∧ n * 16 ≤ (b ++ payload).length) ∨
      (∃ n, j = .stationLoad n b ∧ n * 4 ≤ (b ++ payload).length)) →
    exec (.dataOut dt p tag payload) s = .next (State.settle (e.withPort p { (e.port p).idleTag tag with
      sense := senseOf tag .state 0 none
      outgoing := ((e.port p).idleTag tag).outgoing ++ [checkFrame tag .state 0] }))

/-- A DATA-OUT frame on the tag of a SCAN SETUP: short of 64 bytes it is gathered; at the 64th, in IDLE, a block that passes
every test becomes the live set with DONE, and one that fails is refused ARG with the failing field and changes no
parameter; outside IDLE it is refused STATE. -/
def Statement.ScanSetupData : Prop :=
  ∀ (dt : Nat) (p : PortId) (tag : Tag) (b payload : List Byte) (s e : State), e = s.elapse dt → (e.port p).link = .up →
    1 ≤ payload.length → payload.length ≤ 1024 → (e.port p).tags.get tag = some (.scanSetup b) →
    ((b ++ payload).length < 64 → exec (.dataOut dt p tag payload) s = .next (State.settle (e.withPort p
      { e.port p with tags := (e.port p).tags.set tag (some (.scanSetup (b ++ payload))) }))) ∧
    (64 ≤ (b ++ payload).length → e.scn.state = .idle → firstFailure (scanTests ((b ++ payload).take 64)) = none →
      (scanParamsOf ((b ++ payload).take 64)).ringSize = e.scn.params.ringSize →
      exec (.dataOut dt p tag payload) s = .next (State.settle { e.withPort p { (e.port p).idleTag tag with
          outgoing := ((e.port p).idleTag tag).outgoing ++ [replyFrame tag .done] } with
        scn := { e.scn with params := scanParamsOf ((b ++ payload).take 64) } })) ∧
    (∀ n, 64 ≤ (b ++ payload).length → e.scn.state = .idle →
      firstFailure (scanTests ((b ++ payload).take 64)) = some n →
      exec (.dataOut dt p tag payload) s = .next (State.settle (e.withPort p { (e.port p).idleTag tag with
        sense := senseOf tag .arg 0 (some n)
        outgoing := ((e.port p).idleTag tag).outgoing ++ [checkFrame tag .arg 0] }))) ∧
    (64 ≤ (b ++ payload).length → e.scn.state ≠ .idle →
      exec (.dataOut dt p tag payload) s = .next (State.settle (e.withPort p { (e.port p).idleTag tag with
        sense := senseOf tag .state 0 none
        outgoing := ((e.port p).idleTag tag).outgoing ++ [checkFrame tag .state 0] })))

/-- A SCAN SETUP taken with another ring size: its DONE is handed, the parameters are live, and then the ring is emptied
and every stream closed (the order of the replies is logs 25 and 31). -/
def Statement.RingSizeTaken : Prop :=
  ∀ (dt : Nat) (p : PortId) (tag : Tag) (b payload : List Byte) (s e : State), e = s.elapse dt → (e.port p).link = .up →
    1 ≤ payload.length → payload.length ≤ 1024 → (e.port p).tags.get tag = some (.scanSetup b) →
    64 ≤ (b ++ payload).length → e.scn.state = .idle → firstFailure (scanTests ((b ++ payload).take 64)) = none →
    (scanParamsOf ((b ++ payload).take 64)).ringSize ≠ e.scn.params.ringSize →
    exec (.dataOut dt p tag payload) s = .next (State.settle (({ e.withPort p { (e.port p).idleTag tag with
        outgoing := ((e.port p).idleTag tag).outgoing ++ [replyFrame tag .done] } with
      scn := { e.scn with params := scanParamsOf ((b ++ payload).take 64) } } : State).resizeRing))

/-- The 512th byte of a MIRROR CALIBRATE, in IDLE, makes entry i of the live table the signed 16-bit field at bytes 2i and
2i + 1, with DONE. -/
def Statement.CalibrationData : Prop :=
  ∀ (dt : Nat) (p : PortId) (tag : Tag) (b payload : List Byte) (s e : State), e = s.elapse dt → (e.port p).link = .up →
    1 ≤ payload.length → payload.length ≤ 1024 → (e.port p).tags.get tag = some (.mirrorCalibrate b) →
    512 ≤ (b ++ payload).length → e.scn.state = .idle →
    ∃ table : List (BitVec 16), table.length = 256 ∧
      (∀ i, i < 256 → table.getD i 0 =
        (b ++ payload).getD (2 * i + 1) 0 ++ (b ++ payload).getD (2 * i) 0) ∧
      exec (.dataOut dt p tag payload) s = .next (State.settle { e.withPort p { (e.port p).idleTag tag with
          outgoing := ((e.port p).idleTag tag).outgoing ++ [replyFrame tag .done] } with
        ang := { e.ang with calibration := table } })

/-- The 32nd byte of a CAMERA SETUP, in IDLE: a block that passes every test becomes the setup and its interval the
periodic counter, with DONE; one that fails is refused ARG with the failing field and changes nothing. -/
def Statement.CameraSetupData : Prop :=
  ∀ (dt : Nat) (p : PortId) (tag : Tag) (b payload block : List Byte) (s e : State), e = s.elapse dt →
    (e.port p).link = .up → 1 ≤ payload.length → payload.length ≤ 1024 →
    (e.port p).tags.get tag = some (.cameraSetup b) → 32 ≤ (b ++ payload).length → e.scn.state = .idle →
    block = (b ++ payload).take 32 →
    (firstFailure (cameraTests block) = none →
      exec (.dataOut dt p tag payload) s = .next (State.settle { e.withPort p { (e.port p).idleTag tag with
          outgoing := ((e.port p).idleTag tag).outgoing ++ [replyFrame tag .done] } with
        exs := { e.exs with setup := cameraSetupOf block, periodic := (cameraSetupOf block).interval } })) ∧
    (∀ n, firstFailure (cameraTests block) = some n →
      exec (.dataOut dt p tag payload) s = .next (State.settle (e.withPort p { (e.port p).idleTag tag with
        sense := senseOf tag .arg 0 (some n)
        outgoing := ((e.port p).idleTag tag).outgoing ++ [checkFrame tag .arg 0] })))

/-- The last byte of a MASK LOAD and of a STATION LOAD, in IDLE: the whole list is replaced with DONE, or the command is
refused ARG with the index of the first failing entry, and for a mask entry the number of its failing test. -/
def Statement.ListData : Prop :=
  ∀ (dt n : Nat) (p : PortId) (tag : Tag) (b payload : List Byte) (s e : State), e = s.elapse dt →
    (e.port p).link = .up → 1 ≤ payload.length → payload.length ≤ 1024 → e.scn.state = .idle →
    (∀ records, (e.port p).tags.get tag = some (.maskLoad n b) → n * 16 ≤ (b ++ payload).length →
      records = recordsOf 16 n ((b ++ payload).take (n * 16)) →
      (maskFailure 0 none records = none →
        exec (.dataOut dt p tag payload) s = .next (State.settle { e.withPort p { (e.port p).idleTag tag with
            outgoing := ((e.port p).idleTag tag).outgoing ++ [replyFrame tag .done] } with
          lnb := { e.lnb with mask := records.map maskEntryOf } })) ∧
      (∀ i code, maskFailure 0 none records = some (i, code) →
        exec (.dataOut dt p tag payload) s = .next (State.settle (e.withPort p { (e.port p).idleTag tag with
          sense := senseOf tag .arg code (some i)
          outgoing := ((e.port p).idleTag tag).outgoing ++ [checkFrame tag .arg code] })))) ∧
    (∀ values, (e.port p).tags.get tag = some (.stationLoad n b) → n * 4 ≤ (b ++ payload).length →
      values = (recordsOf 4 n ((b ++ payload).take (n * 4))).map stationOf →
      (stationFailure 0 none values = none →
        exec (.dataOut dt p tag payload) s = .next (State.settle { e.withPort p { (e.port p).idleTag tag with
            outgoing := ((e.port p).idleTag tag).outgoing ++ [replyFrame tag .done] } with
          exs := { e.exs with stations := values.map Int.toNat, nextStation := 0 } })) ∧
      (∀ i, stationFailure 0 none values = some i →
        exec (.dataOut dt p tag payload) s = .next (State.settle (e.withPort p { (e.port p).idleTag tag with
          sense := senseOf tag .arg 0 (some i)
          outgoing := ((e.port p).idleTag tag).outgoing ++ [checkFrame tag .arg 0] }))))

/-- DATA-OUT frames of the five gathering commands. -/
def Obligations.DataBlocksTaken : Prop :=
  Statement.StillGathering ∧ Statement.LastByteOutsideIdle ∧ Statement.ScanSetupData ∧ Statement.RingSizeTaken ∧
    Statement.CalibrationData ∧ Statement.CameraSetupData ∧ Statement.ListData

/-! ### Lines and the Point FIFO (chapter 4) -/

/-- A point of another revolution first closes the open line, without a flag and without spending its revolution, and is then
taken as with no line open. -/
def Statement.NewRevolution : Prop :=
  ∀ (s : State) (x : FormedPoint) (h : LineHeader), s.lnb.openLine = some h → h.revolution ≠ x.revolution →
    ∃ rng, s.takePoint x = ({ s with
      rng := rng
      lnb := { s.lnb with openLine := none, fifo := s.lnb.fifo ++ [.closeNotice h.lineNumber h] } } : State).takePoint x

/-- A point at or above the window's end closes the open line of its revolution, whose close notice goes behind the line's
points and whose revolution is spent, and with no line open changes nothing. With no line open or one of the point's
revolution, a point below the window changes nothing, and a point of a spent revolution and a point inside a DROP entry are
counted and change nothing else: a line that is open stays as it was. -/
def Statement.PointsOutsideTheLine : Prop :=
  ∀ (s : State) (x : FormedPoint) (joins : Prop),
    (joins ↔ ∀ h, s.lnb.openLine = some h → h.revolution = x.revolution) →
    (∀ h, s.lnb.openLine = some h → h.revolution = x.revolution → s.scn.params.we ≤ x.point.m.toNat →
      (s.takePoint x).lnb.openLine = none ∧ (s.takePoint x).lnb.spent = some h.revolution ∧
      (s.takePoint x).lnb.fifo = s.lnb.fifo ++ [.closeNotice h.lineNumber h]) ∧
    (s.lnb.openLine = none → s.scn.params.we ≤ x.point.m.toNat → s.takePoint x = s) ∧
    (joins → x.point.m.toNat < s.scn.params.ws → x.point.m.toNat < s.scn.params.we → s.takePoint x = s) ∧
    (joins → s.scn.params.ws ≤ x.point.m.toNat → x.point.m.toNat < s.scn.params.we →
      s.lnb.spent = some x.revolution → s.takePoint x = { s with lnb := { s.lnb with counters := { s.lnb.counters with
        closedRevolutionDrops := bump s.lnb.counters.closedRevolutionDrops 1 } } }) ∧
    (joins → s.scn.params.ws ≤ x.point.m.toNat → x.point.m.toNat < s.scn.params.we →
      s.lnb.spent ≠ some x.revolution →
      (∃ m ∈ s.lnb.mask, m.action = .drop ∧ (x.point.a - BitVec.ofNat 24 m.azStart).toNat < m.azWidth ∧
        m.mLow ≤ x.point.m.toNat ∧ x.point.m.toNat < m.mHigh) →
      s.takePoint x = { s with lnb := { s.lnb with counters := { s.lnb.counters with
        maskDrops := bump s.lnb.counters.maskDrops 1 } } })

/-- With the line number counter at its end such a point is counted as unnumbered, and with more than 62 notices in the FIFO
as a FIFO drop, and opens no line; else the line it opens is empty before it joins it, whatever points the FIFO holds. -/
def Statement.LineOpens : Prop :=
  ∀ (s : State) (x : FormedPoint), s.lnb.openLine = none → s.scn.params.ws ≤ x.point.m.toNat →
    x.point.m.toNat < s.scn.params.we → s.lnb.spent ≠ some x.revolution →
    (∀ m ∈ s.lnb.mask, m.action = .drop → ¬ ((x.point.a - BitVec.ofNat 24 m.azStart).toNat < m.azWidth ∧
      m.mLow ≤ x.point.m.toNat ∧ x.point.m.toNat < m.mHigh)) →
    (s.lnb.lineCounter = 4294967295 → s.takePoint x = { s with lnb := { s.lnb with counters := { s.lnb.counters with
      unnumberedPoints := bump s.lnb.counters.unnumberedPoints 1 } } }) ∧
    (s.lnb.lineCounter ≠ 4294967295 → 62 < fifoNotices s.lnb.fifo → s.takePoint x = { s with
      lnb := { s.lnb with counters := { s.lnb.counters with fifoDrops := bump s.lnb.counters.fifoDrops 1 } } }) ∧
    (s.lnb.lineCounter ≠ 4294967295 → fifoNotices s.lnb.fifo ≤ 62 → ∃ rng, s.takePoint x = ({ s with
      rng := rng
      lnb := { s.lnb with
        lineCounter := s.lnb.lineCounter + 1
        fifo := s.lnb.fifo ++ [.openNotice (s.lnb.lineCounter + 1)]
        openLine := some ⟨s.lnb.lineCounter + 1, s.scn.session, x.revolution, 0, 0, 0, 0, 0, 0, 0,
          ⟨false, false, false, false, false, false⟩, .settled, 0⟩ } } : State).takePoint x)

/-- A point that reaches LNB with no line open, inside the line window, of a revolution not spent, outside every DROP entry of
the mask list, with room in the FIFO, opens a line with the next number and is its first point, with MASK TAG inside a TAG
entry. -/
def Statement.PointOpensLine : Prop :=
  ∀ (s : State) (x : FormedPoint) (inside : MaskEntry → Prop) (tag : Bool), s.lnb.openLine = none →
    s.scn.params.ws ≤ x.point.m.toNat → x.point.m.toNat < s.scn.params.we → s.lnb.spent ≠ some x.revolution →
    (∀ m, inside m ↔ (x.point.a - BitVec.ofNat 24 m.azStart).toNat < m.azWidth ∧ m.mLow ≤ x.point.m.toNat ∧
      x.point.m.toNat < m.mHigh) →
    (∀ m ∈ s.lnb.mask, m.action = .drop → ¬ inside m) → (tag = true ↔ ∃ m ∈ s.lnb.mask, m.action = .tag ∧ inside m) →
    s.lnb.lineCounter < 4294967295 → fifoNotices s.lnb.fifo ≤ 62 → fifoPoints s.lnb.fifo < 512 →
    (s.takePoint x).lnb.lineCounter = s.lnb.lineCounter + 1 ∧
    (s.takePoint x).lnb.fifo = s.lnb.fifo ++ [.openNotice (s.lnb.lineCounter + 1),
      .point (s.lnb.lineCounter + 1) { x.point with flags := { x.point.flags with maskTag := tag } }] ∧
    (s.takePoint x).lnb.openLine = some {
      lineNumber := s.lnb.lineCounter + 1, session := s.scn.session, revolution := x.revolution,
      firstEmission := x.emission, lastEmission := x.emission, firstA := x.point.a, lastA := x.point.a,
      pointCount := 1, fifoDropped := 0, lostBefore := 0,
      flags := ⟨false, false, x.point.flags.suspect, false, false, x.quality⟩, colour := .settled, pendingCount := 0 } ∧
    (s.takePoint x).lnb.spent = s.lnb.spent ∧ (s.takePoint x).lnb.counters = s.lnb.counters

/-- A point of the open line's revolution that the window and the mask list let pass is accepted: the header takes it, and it
enters the FIFO, or with 512 points there it is dropped, counted and marked, LOST being raised at the line's first drop. The
16,384th accepted point closes the line TRUNCATED and spends its revolution. -/
def Statement.PointAccepted : Prop :=
  ∀ (s t : State) (x : FormedPoint) (h h1 h2 : LineHeader) (inside : MaskEntry → Prop) (tag : Bool) (p : Point),
    t = s.takePoint x → s.lnb.openLine = some h → h.revolution = x.revolution →
    s.scn.params.ws ≤ x.point.m.toNat → x.point.m.toNat < s.scn.params.we → s.lnb.spent ≠ some x.revolution →
    (∀ m, inside m ↔ (x.point.a - BitVec.ofNat 24 m.azStart).toNat < m.azWidth ∧ m.mLow ≤ x.point.m.toNat ∧
      x.point.m.toNat < m.mHigh) →
    (∀ m ∈ s.lnb.mask, m.action = .drop → ¬ inside m) → (tag = true ↔ ∃ m ∈ s.lnb.mask, m.action = .tag ∧ inside m) →
    p = { x.point with flags := { x.point.flags with maskTag := tag } } →
    h1 = { h with
      firstEmission := if h.pointCount + h.fifoDropped = 0 then x.emission else h.firstEmission
      firstA := if h.pointCount + h.fifoDropped = 0 then x.point.a else h.firstA
      lastEmission := x.emission
      lastA := x.point.a
      pointCount := h.pointCount + 1
      flags := { h.flags with
        suspect := h.flags.suspect || x.point.flags.suspect, quality := h.flags.quality || x.quality } } →
    h2 = { h1 with
      pointCount := h.pointCount, fifoDropped := h.fifoDropped + 1, flags := { h1.flags with pointsDropped := true } } →
    (fifoPoints s.lnb.fifo < 512 → h.pointCount + h.fifoDropped + 1 < 16384 → t.lnb = { s.lnb with
      openLine := some h1, fifo := s.lnb.fifo ++ [.point h.lineNumber p] }) ∧
    (fifoPoints s.lnb.fifo < 512 → h.pointCount + h.fifoDropped + 1 = 16384 → t.lnb = { s.lnb with
      openLine := none, spent := some h.revolution
      fifo := s.lnb.fifo ++ [.point h.lineNumber p,
        .closeNotice h.lineNumber { h1 with flags := { h1.flags with truncated := true } }] }) ∧
    (512 ≤ fifoPoints s.lnb.fifo → h.pointCount + h.fifoDropped + 1 < 16384 → t.lnb = { s.lnb with
      openLine := some h2
      counters := { s.lnb.counters with fifoDrops := bump s.lnb.counters.fifoDrops 1 } }) ∧
    (512 ≤ fifoPoints s.lnb.fifo → h.pointCount + h.fifoDropped + 1 = 16384 → t.lnb = { s.lnb with
      openLine := none, spent := some h.revolution
      fifo := s.lnb.fifo ++ [.closeNotice h.lineNumber { h2 with flags := { h2.flags with truncated := true } }]
      counters := { s.lnb.counters with fifoDrops := bump s.lnb.counters.fifoDrops 1 } }) ∧
    (512 ≤ fifoPoints s.lnb.fifo → h.flags.pointsDropped = false → raisedEverywhere evLost t) ∧
    (fifoPoints s.lnb.fifo < 512 ∨ h.flags.pointsDropped = true → t.atn = s.atn) ∧
    t.scn = s.scn ∧ t.eca = s.eca ∧ t.ang = s.ang ∧ t.clr = s.clr ∧ t.exs = s.exs ∧ t.prt = s.prt

/-- LNB takes the oldest abandonment report: one that names the open line ends it without a close notice and spends its
revolution, another changes nothing but the report's leaving (the list of reports is the model's, log 21). -/
def Statement.AbandonmentReportTaken : Prop :=
  ∀ (dt : Nat) (n : Nat) (rest : List Nat) (s e : State), e = s.elapse dt → e.lnb.reports = n :: rest →
    (∀ h, e.lnb.openLine = some h → h.lineNumber = n → exec (.abandonmentReport dt) s =
      .next { e with lnb := { e.lnb with openLine := none, spent := some h.revolution, reports := rest } }) ∧
    ((∀ h, e.lnb.openLine = some h → h.lineNumber ≠ n) → exec (.abandonmentReport dt) s =
      .next { e with lnb := { e.lnb with reports := rest } })

/-- Points that open a line, join one or neither, and the abandonment report. -/
def Obligations.PointsAtTheLineBuilder : Prop :=
  Statement.NewRevolution ∧ Statement.PointsOutsideTheLine ∧ Statement.LineOpens ∧ Statement.PointOpensLine ∧
    Statement.PointAccepted ∧ Statement.AbandonmentReportTaken

/-! ### The ring and the arbiter (chapter 5) -/

/-- Admission of bytes that fit changes nothing; with the ring full, a committed line held by an open essential stream that
has not released it is not reclaimed, and the bytes are not admitted. -/
def Statement.Admission : Prop :=
  ∀ (s : State) (bytes : Nat),
    (s.rng.occupancy + bytes ≤ s.scn.params.ringSize * 67108864 → s.admitBytes bytes = (s, true)) ∧
    (∀ (p : PortId) (l : RingLine) (rest : List RingLine), s.scn.params.ringSize * 67108864 < s.rng.occupancy + bytes →
      s.rng.committed = l :: rest → (s.stream p).isOpen = true → (s.stream p).essential = true →
      (s.stream p).releasePoint < l.header.lineNumber → s.admitBytes bytes = (s, false)) ∧
    (s.scn.params.ringSize * 67108864 < s.rng.occupancy + bytes → s.rng.committed = [] → s.admitBytes bytes = (s, false))

/-- Bytes that do not fit while the oldest committed line is released by every open essential stream: that line is reclaimed
and the bytes are tried again. -/
def Statement.ReclaimForAdmission : Prop :=
  ∀ (s : State) (bytes : Nat) (l : RingLine) (rest : List RingLine),
    s.scn.params.ringSize * 67108864 < s.rng.occupancy + bytes → s.rng.committed = l :: rest →
    (∀ p, (s.stream p).isOpen = true → (s.stream p).essential = true → l.header.lineNumber ≤ (s.stream p).releasePoint) →
    s.admitBytes bytes = (s.reclaimHead l).admitBytes bytes

/-- A reclaimed line leaves the ring. Each open non-essential stream that had not released it is advanced to it, with OVERRUN
and a count, and a delivery of it ends CHECK GONE with its number; other streams keep their points. A stream that has a
deliverable line now and had none is raised READY. Every read-check table and the pending-line list lose the line, and a back-fill step on it is cut (the order of the replies is log 31). -/
def Statement.ReclaimOfALine : Prop :=
  ∀ (s t : State) (l : RingLine) (rest : List RingLine) (n : Nat) (advanced cut : PortId → Bool),
    s.rng.committed = l :: rest → n = l.header.lineNumber →
    t = s.reclaimHead l →
    (∀ p, advanced p = true ↔ (s.stream p).isOpen = true ∧ (s.stream p).essential = false ∧ (s.stream p).releasePoint < n) →
    (∀ p, cut p = true ↔ advanced p = true ∧ ∃ r holding sent, (s.stream p).read = some r ∧ r.state = .delivering n holding sent) →
    t.rng.committed = rest ∧ t.rng.closed = s.rng.closed ∧ t.rng.openLine = s.rng.openLine ∧
    (∀ p, (t.stream p).table = (s.stream p).table.filter (fun x => decide (x.line ≠ n)) ∧
      (t.stream p).isOpen = (s.stream p).isOpen ∧ (t.stream p).mode = (s.stream p).mode ∧
      (t.stream p).essential = (s.stream p).essential ∧ (t.stream p).unsure = (s.stream p).unsure) ∧
    (∀ p, (t.stream p).readPoint = (if advanced p then max (s.stream p).readPoint n else (s.stream p).readPoint) ∧
      (t.stream p).releasePoint = (if advanced p then n else (s.stream p).releasePoint) ∧
      (t.stream p).read = (if cut p then none else (s.stream p).read)) ∧
    (∀ p, advanced p = true → (s.port p).link = .up → if (t.atn.get p).frozen then EventSet.has (t.atn.get p).held evOverrun = true
      else EventSet.has (t.atn.get p).pending evOverrun = true) ∧
    (∀ p a, a = (if advanced p then (s.atn.get p).raise evOverrun (s.port p).link else s.atn.get p) →
      t.atn.get p = (if s.deliverable p = none ∧ t.deliverable p ≠ none then a.raise evReady (s.port p).link else a)) ∧
    (∀ p r, cut p = true → (s.stream p).read = some r → (t.port p).tags.get r.tag = none ∧
      (t.port p).sense = ⟨.gone, 0, n, true, r.tag⟩ ∧
      ((s.port p).link = .up → checkFrame r.tag .gone 0 ∈ (t.port p).outgoing)) ∧
    t.rng.counters.streamOverruns = (if allPorts.countP advanced = 0 then
      s.rng.counters.streamOverruns else min (s.rng.counters.streamOverruns + allPorts.countP advanced)
        4294967295) ∧
    t.strCounters.cutDeliveries = (if allPorts.countP cut = 0 then s.strCounters.cutDeliveries
      else min (s.strCounters.cutDeliveries + allPorts.countP cut) 4294967295) ∧
    t.clr.pendingList = s.clr.pendingList.filter (fun m => decide (m ≠ n)) ∧
    (∀ x, s.clr.pass = some x → x.kind ≠ .firstPass → x.line = n → t.clr.pass = none ∧ (∀ y ∈ t.clr.slots, y.pins = 0)) ∧
    ((∀ x, s.clr.pass = some x → x.kind = .firstPass ∨ x.line ≠ n) → t.clr.pass = s.clr.pass ∧ t.clr.slots = s.clr.slots) ∧
    t.clr.work = s.clr.work ∧ t.clr.backfillQueue = s.clr.backfillQueue ∧ t.clr.tileArea = s.clr.tileArea ∧
    SameScan s t ∧ SamePorts s t ∧ t.lnb = s.lnb ∧ t.exs = s.exs

/-- At an abandonment the line becomes the discarding line, its bytes are freed, the lost count and boundary follow, LINES
LOST and ABANDONED POINTS count, LOST is raised and LNB is sent the report, behind those that wait (the list of reports is
the model's, log 21). -/
def Statement.Abandonment : Prop :=
  ∀ (n lost : Nat) (s t : State), t = s.abandon n lost →
    t.rng = { s.rng with
      openLine := none
      discarding := some ⟨n, .abandoned⟩
      lostCount := min (s.rng.lostCount + 1) 4294967295
      lostBoundary := some n
      counters := { s.rng.counters with
        linesLost := min (s.rng.counters.linesLost + 1) 4294967295
        abandonedPoints := min (s.rng.counters.abandonedPoints + lost) 4294967295 } } ∧
    t.lnb = { s.lnb with reports := s.lnb.reports ++ [n] } ∧ raisedEverywhere evLost t ∧
    t.tb = s.tb ∧ t.scn = s.scn ∧ t.clr = s.clr ∧ t.str = s.str ∧ t.prt = s.prt

/-- A new ring size empties the ring and closes every stream, its read-check table and unsure mark with it, an outstanding LINES
READ ending CHECK ABORTED; the mode and both points stay, and the essential flag is cleared (log 23). The open line,
if any, becomes the discarding line. CLR's lines leave its lists and its pass or step is cut, whose pins go and free RETIRING
slots; the other slots, the sector lists, the tiles and the back-fill work stay (the order of the replies is log 31). -/
def Statement.RingSizeChange : Prop :=
  ∀ (s t : State), t = s.resizeRing →
    t.rng.committed = [] ∧ t.rng.closed = [] ∧ t.rng.openLine = none ∧ t.rng.occupancy = 0 ∧ t.rng.lostCount = 0 ∧
    t.rng.lostBoundary = none ∧ (∀ o, s.rng.openLine = some o → t.rng.discarding = some ⟨o.number, .resized⟩) ∧
    (s.rng.openLine = none → t.rng.discarding = s.rng.discarding) ∧
    t.clr.colourQueue = [] ∧ t.clr.pendingList = [] ∧ t.clr.pass = none ∧ t.clr.sectors = s.clr.sectors ∧
    (s.clr.pass = none → t.clr.slots = s.clr.slots) ∧
    (s.clr.pass ≠ none → t.clr.slots = (s.clr.slots.filter (fun y => !(decide (y.state = .retiring) &&
      decide (0 < y.pins)))).map (fun y => { y with pins := 0 })) ∧
    t.clr.tileArea = s.clr.tileArea ∧ t.clr.work = s.clr.work ∧ t.clr.backfillQueue = s.clr.backfillQueue ∧
    t.clr.sweepMark = s.clr.sweepMark ∧ t.lnb = s.lnb ∧ t.exs = s.exs ∧ SameScan s t ∧ SamePorts s t ∧
    (∀ p, ((s.stream p).isOpen = true → t.stream p =
        { s.stream p with isOpen := false, essential := false, read := none, table := [], unsure := none }) ∧
      ((s.stream p).isOpen = false → t.stream p = s.stream p)) ∧
    (∀ p, (t.stream p).isOpen = false ∧ ∀ r, (s.stream p).isOpen = true → (s.stream p).read = some r →
      (t.stream p).read = none ∧ (t.port p).tags.get r.tag = none ∧
      ((s.port p).link = .up → checkFrame r.tag .aborted 0 ∈ (t.port p).outgoing))

/-- Admission, reclaim, abandonment and the emptying of the ring. -/
def Obligations.RingSpace : Prop :=
  Statement.Admission ∧ Statement.ReclaimForAdmission ∧ Statement.ReclaimOfALine ∧ Statement.Abandonment ∧
    Statement.RingSizeChange

/-- The ring writer takes the oldest item; `u` is the state with it out of the FIFO. An item of the discarding line is
discarded: a point counts when the line was abandoned, and the close notice ends the discarding. -/
def Statement.DiscardedItems : Prop :=
  ∀ (s u : State) (x : FifoItem) (rest : List FifoItem) (d : Discarding), s.lnb.fifo = x :: rest →
    u = { s.withFifo rest with rng := { (s.withFifo rest).rng with stallCounted := false } } →
    s.rng.discarding = some d →
    (x = .openNotice d.number → s.writeItem = u) ∧
    (∀ h, x = .closeNotice d.number h → s.writeItem = { u with rng := { u.rng with discarding := none } }) ∧
    (∀ p, x = .point d.number p → d.cause = .resized → s.writeItem = u) ∧
    (∀ p, x = .point d.number p → d.cause = .abandoned → s.writeItem = { u with rng := { u.rng with
      counters := { u.rng.counters with abandonedPoints := bump u.rng.counters.abandonedPoints 1 } } })

/-- Any other item: an open notice is admitted with 48 bytes and opens the ring's line, or the line is abandoned as it opens;
a point is admitted with its bytes and written ABSENT, or its line is abandoned with it; a close notice moves the line to the
closed-line list, COLOURING in the colour queue, or SKIPPED with COLOUR SKIPPED in the copy when that holds 16. -/
def Statement.WrittenItems : Prop :=
  ∀ (s u w : State) (x : FifoItem) (rest : List FifoItem), s.lnb.fifo = x :: rest →
    u = { s.withFifo rest with rng := { (s.withFifo rest).rng with stallCounted := false } } →
    (∀ d, s.rng.discarding = some d → d.number ≠ x.line) →
    (∀ n, x = .openNotice n →
      (({ u with rng := { u.rng with discarding := none } } : State).admitBytes 48 = (w, true) →
        s.writeItem = { w with rng := { w.rng with openLine := some ⟨n, []⟩ } }) ∧
      (({ u with rng := { u.rng with discarding := none } } : State).admitBytes 48 = (w, false) →
        s.writeItem = w.abandon n 0)) ∧
    (∀ n p o, x = .point n p → s.rng.openLine = some o →
      (u.admitBytes (12 + 8 * p.echoes.length) = (w, true) → s.writeItem = { w with rng := { w.rng with
        openLine := some ⟨o.number, o.points ++
          [{ p with colourState := .absent, colour := ⟨0, 0, 0⟩, colourTag := 0 }]⟩ } }) ∧
      (u.admitBytes (12 + 8 * p.echoes.length) = (w, false) → s.writeItem = w.abandon n (o.points.length + 1))) ∧
    (∀ n h o, x = .closeNotice n h → s.rng.openLine = some o →
      (u.clr.colourQueue.length < 16 → s.writeItem = State.commitReady { u with
        clr := { u.clr with colourQueue := u.clr.colourQueue ++ [h.lineNumber] }
        rng := { u.rng with openLine := none, closed := u.rng.closed ++ [⟨⟨h, h, o.points⟩, .colouring⟩] } }) ∧
      (16 ≤ u.clr.colourQueue.length → s.writeItem = State.commitReady { u with
        clr := { u.clr with counters := { u.clr.counters with
          colourSkippedLines := bump u.clr.counters.colourSkippedLines 1 } }
        rng := { u.rng with
          openLine := none
          closed := u.rng.closed ++
            [⟨⟨{ h with flags := { h.flags with colourSkipped := true } }, h, o.points⟩, .skipped⟩] } }))

/-- Lines commit from the head of the closed-line list while it is not COLOURING. A commit sets the lost-before count, the
lost count going to the first line above the lost boundary, appends the line, lets a PENDING one join the pending-line list,
raises READY where a stream has gained a line and QUALITY for a line with the flag. -/
def Statement.LinesCommit : Prop :=
  (∀ s : State, s.rng.closed = [] ∨ (∃ x rest, s.rng.closed = x :: rest ∧ x.state = .colouring) → s.commitReady = s) ∧
  (∀ (s t : State) (l : RingLine) (st : ClosedState) (rest : List ClosedLine) (taken : Bool) (n : Nat),
    s.rng.closed = ⟨l, st⟩ :: rest → n = l.header.lineNumber → t = s.commitHead l →
    (taken = true ↔ 0 < s.rng.lostCount ∧ ∃ b, s.rng.lostBoundary = some b ∧ b < n) →
    (st ≠ .colouring → s.commitReady = t.commitReady) ∧
    t.rng = { s.rng with
      committed := s.rng.committed ++ [{ l with header := { l.header with
        lostBefore := if taken then s.rng.lostCount else 0 } }]
      closed := rest
      lostCount := if taken then 0 else s.rng.lostCount
      lostBoundary := if taken then none else s.rng.lostBoundary } ∧
    t.clr = { s.clr with pendingList := s.clr.pendingList ++ (if l.header.colour = .pending then [n] else []) } ∧
    (∀ p, deliverable s.rng (s.stream p) = none → deliverable t.rng (s.stream p) ≠ none → (s.port p).link = .up →
      if (t.atn.get p).frozen then EventSet.has (t.atn.get p).held evReady = true
      else EventSet.has (t.atn.get p).pending evReady = true) ∧
    (l.header.flags.quality = true → raisedEverywhere evQuality t) ∧
    t.str = s.str ∧ t.prt = s.prt ∧ t.lnb = s.lnb ∧ t.exs = s.exs ∧ SameScan s t)

/-- The items of the Point FIFO become lines of the ring, and lines commit. -/
def Obligations.LinesIntoTheRing : Prop :=
  Statement.DiscardedItems ∧ Statement.WrittenItems ∧ Statement.LinesCommit

/-- The arbiter's mode follows the number of points in the FIFO: above 384 HOLD-OFF, below 128 NORMAL, between them as it
was; a change of mode sets the run of ring writer grants to 0. -/
def Statement.ArbiterModeFollows : Prop :=
  ∀ (s t : State) (fifo : List FifoItem) (mode : ArbiterMode), t = s.withFifo fifo →
    (384 < fifoPoints fifo → mode = .holdOff) → (fifoPoints fifo < 128 → mode = .normal) →
    (128 ≤ fifoPoints fifo → fifoPoints fifo ≤ 384 → mode = s.rng.mode) →
    t = { s with
      lnb := { s.lnb with fifo := fifo }
      rng := { s.rng with mode := mode, run := if mode = s.rng.mode then s.rng.run else 0 } }

/-- Who requests the DRAM: the ring writer with an item it can take, CLR with a pass or a step on a line no reader holds, the
tile loader with bytes to write, a reader with bytes of its line left and its frames taken by the link (log 10). At a close
notice with 32 closed lines the ring writer is stalled, which CLOSE WAITS counts once for the notice. -/
def Statement.DramRequests : Prop :=
  ∀ (s : State) (stalled : Bool),
    (stalled = true ↔ 32 ≤ s.rng.closed.length ∧ ∃ n h rest, s.lnb.fifo = .closeNotice n h :: rest ∧
      ∀ d, s.rng.discarding = some d → d.number ≠ n) →
    (s.writerRequests = true ↔ s.lnb.fifo ≠ [] ∧ stalled = false) ∧
    (stalled = true → s.rng.stallCounted = false → s.countStall = { s with rng := { s.rng with
      stallCounted := true
      counters := { s.rng.counters with closeWaits := bump s.rng.counters.closeWaits 1 } } }) ∧
    (stalled = false ∨ s.rng.stallCounted = true → s.countStall = s) ∧
    (s.requests .clr = true ↔ ∃ x, s.clr.pass = some x ∧ (x.kind = .firstPass ∨
      ∀ p r sent, (s.stream p).read = some r → r.state ≠ .delivering x.line true sent)) ∧
    (s.requests .tileLoader = true ↔ s.clr.loader ≠ []) ∧
    (∀ p, s.requests (.reader p) = true ↔ ∃ r n sent l, (s.stream p).read = some r ∧ r.state = .delivering n true sent ∧
      s.rng.lookup n = some l ∧ sent < 48 + (l.points.map (fun x => 12 + 8 * x.echoes.length)).sum ∧
      ∀ f ∈ (s.port p).outgoing, f.tag = r.tag → ∀ d, f.body ≠ .dataIn d)

/-- The grant of an idle DRAM. In HOLD-OFF the ring writer has it whenever it requests; in NORMAL it has it unless another
has waited through a run of 4 of its grants (grants with none waiting start the run again, log 8); else the first requester
in the cycle after the last one has it. -/
def Statement.DramGrants : Prop :=
  ∀ s : State,
    (∀ y, s.rng.inProgress = some y → s.grant = s) ∧
    (s.rng.inProgress = none → s.writerRequests = false → (∀ x, s.requests x = false) → s.grant = s) ∧
    (s.rng.inProgress = none → s.writerRequests = true → s.rng.mode = .holdOff →
      s.grant = ({ s with rng := { s.rng with inProgress := some ⟨.ringWriter, true⟩ } } : State).writeItem) ∧
    (s.rng.inProgress = none → s.writerRequests = true → s.rng.mode = .normal → (∀ x, s.requests x = false) →
      s.grant = ({ s with rng := { s.rng with run := 0, inProgress := some ⟨.ringWriter, true⟩ } } : State).writeItem) ∧
    (∀ x, s.rng.inProgress = none → s.writerRequests = true → s.rng.mode = .normal → s.requests x = true → s.rng.run < 4 →
      s.grant = ({ s with rng := { s.rng with
        run := s.rng.run + 1, inProgress := some ⟨.ringWriter, true⟩ } } : State).writeItem) ∧
    (∀ (x : RoundRobin) (first last before after : List RoundRobin), s.rng.inProgress = none →
      s.writerRequests = false ∨ (s.rng.mode = .normal ∧ 4 ≤ s.rng.run) → s.requests x = true →
      [.clr, .tileLoader, .reader 0, .reader 1, .reader 2, .reader 3] = first ++ s.rng.lastRR :: last →
      last ++ first ++ [s.rng.lastRR] = before ++ x :: after → (∀ y ∈ before, s.requests y = false) →
      s.grant = { s with rng := { s.rng with lastRR := x, run := 0, inProgress := some ⟨(match x with
        | .clr => .clr
        | .tileLoader => .tileLoader ((s.clr.loader.head?.map LoadChunk.slot).getD 0)
        | .reader p => .reader p), true⟩ } })

/-- The end of a step (its order is log 7): readers that may begin do, in port order, the free colour engine chooses, a stall
counts and the idle DRAM is granted, and what the grant brought about is followed up in the same way. -/
def Statement.EndOfAStep : Prop :=
  ∀ (s : State) (follow : State → State),
    (∀ u, follow u = State.countStall { (([0, 1, 2, 3] : List PortId).foldl State.beginRead u) with
      clr := (([0, 1, 2, 3] : List PortId).foldl State.beginRead u).clr.choose }) →
    s.settle = follow (follow s).grant

/-- The arbiter: its mode, the requests, the grants, and when they are made. -/
def Obligations.ArbiterGrants : Prop :=
  Statement.ArbiterModeFollows ∧ Statement.DramRequests ∧ Statement.DramGrants ∧ Statement.EndOfAStep

/-- The tile loader's transfer in progress ends: its bytes stand in the slot's part of the tile area behind those already
written, and every other byte of the tile area is as before. `k` bytes are written, from 1 to all the bytes waiting and 1,024
at most (the amount is an operand, log 5). -/
def Statement.TileLoaderTransferEnds : Prop :=
  ∀ (dt work : Nat) (slot : Nat) (chunk : LoadChunk) (rest : List LoadChunk) (t : TileSlot) (k : Nat) (s e : State),
    e = s.elapse dt → e.rng.inProgress = some ⟨.tileLoader slot, true⟩ → e.clr.loader = chunk :: rest →
    e.clr.slot slot = some t → Memory.wf e.clr.tileArea → k = max 1 (min (min work 1024) chunk.bytes.length) →
    k ≤ chunk.bytes.length →
    ∃ u : State, exec (.dramTransferEnd dt work) s = .next u ∧
      (∀ i, i < k → Memory.read u.clr.tileArea (slot * 196608 + t.written + i) = chunk.bytes.getD i 0) ∧
      (∀ a, (a < slot * 196608 + t.written ∨ slot * 196608 + t.written + k ≤ a) →
        Memory.read u.clr.tileArea a = Memory.read e.clr.tileArea a) ∧
      u.tb = e.tb ∧ u.ang = e.ang ∧ u.eca = e.eca ∧ u.scn = e.scn ∧ u.pending = e.pending

/-- The end of a transfer of any other requester leaves every byte of the tile area. -/
def Statement.OtherTransfersLeaveTileArea : Prop :=
  ∀ (dt work : Nat) (x : Transfer) (s e : State), e = s.elapse dt → e.rng.inProgress = some x →
    (∀ slot, x.owner ≠ .tileLoader slot) →
    ∃ u : State, exec (.dramTransferEnd dt work) s = .next u ∧ u.clr.tileArea = e.clr.tileArea ∧
      u.tb = e.tb ∧ u.ang = e.ang ∧ u.eca = e.eca ∧ u.scn = e.scn ∧ u.exs = e.exs ∧ u.pending = e.pending

/-- A stream reader's transfer in progress ends: the bytes read are handed in one DATA-IN frame of the LINES READ's tag, and its
count of bytes sent of the line advances by as many (the amount and the division into frames are logs 5 and 9). -/
def Statement.ReaderTransferEnds : Prop :=
  ∀ (dt work : Nat) (p : PortId) (r : LinesRead) (n sent : Nat) (l : RingLine) (s e t : State), e = s.elapse dt →
    (e.port p).link = .up → e.rng.inProgress = some ⟨.reader p, true⟩ → (e.stream p).read = some r →
    r.state = .delivering n true sent → e.rng.lookup n = some l →
    t = { e.withPort p { e.port p with
        outgoing := (e.port p).outgoing ++ [⟨r.tag, .dataIn ((l.bytes.drop sent).take (max 1 (min work 1024))), false⟩] } with
      rng := { e.rng with inProgress := none }
      str := e.str.set p { e.stream p with read := some ⟨r.tag, r.remaining, .delivering n true
        (sent + ((l.bytes.drop sent).take (max 1 (min work 1024))).length)⟩ } } →
    ∃ u : State, u = t.settle ∧ exec (.dramTransferEnd dt work) s = .next u ∧
      (∃ f ∈ (u.port p).outgoing, f.tag = r.tag ∧
        f.body = .dataIn ((l.bytes.drop sent).take (max 1 (min work 1024)))) ∧
      u.clr.tileArea = e.clr.tileArea ∧ u.tb = e.tb ∧ u.ang = e.ang ∧ u.eca = e.eca ∧ u.scn = e.scn ∧
      u.exs = e.exs ∧ u.pending = e.pending

/-- The end of a transfer whose work has ended, and of a ring writer's, whose item was dealt with at its grant, frees the
DRAM and does nothing else; with no transfer in progress none ends (log 3). -/
def Statement.TransferWithoutWork : Prop :=
  ∀ (dt work : Nat) (s e : State), e = s.elapse dt →
    (∀ x, e.rng.inProgress = some x → x.wanted = false ∨ x.owner = .ringWriter →
      exec (.dramTransferEnd dt work) s = .next (State.settle { e with rng := { e.rng with inProgress := none } })) ∧
    (e.rng.inProgress = none → exec (.dramTransferEnd dt work) s = .next e)

/-- The end of a DRAM transfer, by its requester. -/
def Obligations.TransfersEnd : Prop :=
  Statement.TileLoaderTransferEnds ∧ Statement.OtherTransfersLeaveTileArea ∧ Statement.ReaderTransferEnds ∧
    Statement.TransferWithoutWork

/-! ### Passes and back-fill (chapter 7) -/

/-- The first pass of a line ends: the line's header takes the count of its points that are PENDING and its colour state, the
line leaves the colour queue and is COLOURED, and commits with the ready lines behind it when it heads the closed-line list;
every pin goes, RETIRING slots that were pinned are freed with DONE, and the engine is free (the end is the last transfer's,
log 6). -/
def Statement.FirstPassEnds : Prop :=
  ∀ (dt n done tally count : Nat) (l l' : RingLine) (before after : List ClosedLine) (s e : State), e = s.elapse dt →
    LineColourInv e → e.rng.inProgress = some ⟨.clr, true⟩ → e.clr.pass = some ⟨n, .firstPass, done, tally⟩ →
    e.rng.closed = before ++ ⟨l, .colouring⟩ :: after → l.header.lineNumber = n → l.points.length ≤ done →
    count = l.points.countP (fun p => decide (p.colourState = .pending)) →
    l' = ⟨{ l.header with pendingCount := count, colour := if count = 0 then .settled else .pending },
      { l.dramHeader with pendingCount := count, colour := if count = 0 then .settled else .pending }, l.points⟩ →
    ∃ u : State, exec (.firstPassEnd dt) s = .next u.settle ∧
      (before = [] → ∃ lost more, u.rng.closed = after.dropWhile (fun x => decide (x.state ≠ .colouring)) ∧
        u.rng.committed = e.rng.committed ++ { l' with header := { l'.header with lostBefore := lost } } :: more) ∧
      (∀ x rest, before = x :: rest → x.state = .colouring → u.rng.committed = e.rng.committed ∧
        u.rng.closed = before ++ ⟨l', .coloured⟩ :: after) ∧
      u.clr.colourQueue = e.clr.colourQueue.erase n ∧ u.clr.pass = none ∧ u.rng.inProgress = none ∧
      u.clr.slots = (e.clr.slots.filter (fun t => !(decide (t.state = .retiring) && decide (0 < t.pins)))).map
        (fun t => { t with pins := 0 }) ∧
      (∀ t ∈ e.clr.slots, ∀ o, t.state = .retiring → 0 < t.pins → t.owner = some o →
        (u.port o.port).tags.get o.tag = none ∧
        ((e.port o.port).link = .up → replyFrame o.tag .done ∈ (u.port o.port).outgoing)) ∧
      u.clr.tileArea = e.clr.tileArea ∧ u.tb = e.tb ∧ u.scn = e.scn ∧ u.exs = e.exs ∧ u.lnb = e.lnb ∧ u.pending = e.pending

/-- A back-fill step ends: the pending count is that of the points still PENDING, the line leaves the pending-line list when
none is, every stream that watches the line is told RECOLOUR, and every stream that has a deliverable line now and had none,
which is one held at the line that settled, is told READY; unless no point left PENDING, when the header stays and nothing is
raised. The pins go as at the end of a first pass. The end is the last transfer's (log 6), also of a step with nothing to write (the model's
choice, log 35). -/
def Statement.BackfillStepEnds : Prop :=
  ∀ (dt n done tally count : Nat) (k : PassKind) (l : RingLine) (before after : List RingLine) (s e : State),
    e = s.elapse dt → LineColourInv e → e.rng.inProgress = some ⟨.clr, true⟩ → e.clr.pass = some ⟨n, k, done, tally⟩ →
    k ≠ .firstPass → e.rng.committed = before ++ l :: after → l.header.lineNumber = n → l.points.length ≤ done →
    count = l.points.countP (fun p => decide (p.colourState = .pending)) →
    ∃ u : State, exec (.backfillStepEnd dt) s = .next u.settle ∧
      (tally = 0 → u.rng.committed = e.rng.committed ∧ u.str = e.str ∧ u.atn = e.atn) ∧
      (1 ≤ tally → ∀ p a, a = (if ∃ x ∈ (e.stream p).table, x.line = n then (e.atn.get p).raise evRecolour (e.port p).link
          else e.atn.get p) →
        u.atn.get p = (if e.deliverable p = none ∧ u.deliverable p ≠ none then a.raise evReady (e.port p).link else a)) ∧
      (1 ≤ tally → count = 0 → ∀ p, (e.stream p).isOpen = true → (e.stream p).mode = .settled → (e.stream p).readPoint < n →
        (∀ x ∈ before, x.header.lineNumber ≤ (e.stream p).readPoint) → l.header.colour = .pending → (e.port p).link = .up →
        if (u.atn.get p).frozen then EventSet.has (u.atn.get p).held evReady = true
        else EventSet.has (u.atn.get p).pending evReady = true) ∧
      (1 ≤ tally → u.rng.committed = before ++
          ⟨{ l.header with pendingCount := count, colour := if count = 0 then .settled else .pending },
            { l.dramHeader with pendingCount := count, colour := if count = 0 then .settled else .pending }, l.points⟩
            :: after ∧
        (∀ p, (u.stream p).table = (e.stream p).table.map
          (fun x => if x.line = n then { x with state := .changed } else x)) ∧
        (∀ p, (∃ x ∈ (e.stream p).table, x.line = n) → (e.port p).link = .up →
          if (u.atn.get p).frozen then EventSet.has (u.atn.get p).held evRecolour = true
          else EventSet.has (u.atn.get p).pending evRecolour = true)) ∧
      u.clr.pendingList = (if count = 0 then e.clr.pendingList.filter (fun m => decide (m ≠ n)) else e.clr.pendingList) ∧
      u.clr.pass = none ∧ u.rng.inProgress = none ∧
      u.clr.slots = (e.clr.slots.filter (fun t => !(decide (t.state = .retiring) && decide (0 < t.pins)))).map
        (fun t => { t with pins := 0 }) ∧
      (∀ t ∈ e.clr.slots, ∀ o, t.state = .retiring → 0 < t.pins → t.owner = some o →
        (u.port o.port).tags.get o.tag = none ∧
        ((e.port o.port).link = .up → replyFrame o.tag .done ∈ (u.port o.port).outgoing)) ∧
      u.clr.tileArea = e.clr.tileArea ∧ u.tb = e.tb ∧ u.scn = e.scn ∧ u.exs = e.exs ∧ u.lnb = e.lnb ∧
      u.pending = e.pending

/-- The end of a first pass and of a back-fill step. -/
def Obligations.ColourPassesEnd : Prop :=
  Statement.FirstPassEnds ∧ Statement.BackfillStepEnds

/-- What the colour engine does when it is free: work whose end line is absent or reached ends; the oldest line of the colour
queue gets its first pass; else the work in hand steps on the oldest PENDING line above its position and not above its end
line, and ends when there is none; else the sweep is taken up for all queued tasks, or the oldest task, with the newest
PENDING line as its end line; else nothing. -/
def Statement.EngineChooses : Prop :=
  ∀ c : Clr, (∀ x, c.pass = some x → c.choose = c) ∧ (c.pass = none →
    (∀ w, c.work = some w → (w.endLine = none ∨ ∃ n m, w.endLine = some n ∧ w.position = some m ∧ n ≤ m) →
      c.choose = Clr.choose { c with work := none }) ∧
    (∀ n rest, (∀ w, c.work = some w → ∃ m, w.endLine = some m ∧ ∀ q, w.position = some q → q < m) →
      c.colourQueue = n :: rest → c.choose = { c with pass := some ⟨n, .firstPass, 0, 0⟩ }) ∧
    (∀ (w : Work) (last : Nat) (ahead : Nat → Prop), c.colourQueue = [] → c.work = some w → w.endLine = some last →
      (∀ q, w.position = some q → q < last) → (∀ n, ahead n ↔ n ≤ last ∧ ∀ q, w.position = some q → q < n) →
      (∀ before n after, c.pendingList = before ++ n :: after → (∀ m ∈ before, ¬ ahead m) → ahead n → c.choose = { c with
        work := some { w with position := some n }
        pass := some ⟨n, (match w.kind with
          | .task id => .task id
          | .sweep => .sweep), 0, 0⟩ }) ∧
      ((∀ m ∈ c.pendingList, ¬ ahead m) → c.choose = Clr.choose { c with work := none })) ∧
    (c.colourQueue = [] → c.work = none → c.sweepMark = true → c.choose = Clr.choose { c with
      work := some ⟨.sweep, c.pendingList.getLast?, none⟩, sweepMark := false, backfillQueue := [] }) ∧
    (∀ id rest, c.colourQueue = [] → c.work = none → c.sweepMark = false → c.backfillQueue = id :: rest →
      c.choose = Clr.choose { c with work := some ⟨.task id, c.pendingList.getLast?, none⟩, backfillQueue := rest }) ∧
    (c.colourQueue = [] → c.work = none → c.sweepMark = false → c.backfillQueue = [] → c.choose = c))

/-- A CLR transfer that does not end its pass deals with the line's next point records, in order: as many as the command says
and 1,024 bytes carry, which hold each record read and, where the pass evaluates the point, the record written back and the 3
bytes of the cell it takes (the amount is an operand, log 5; that all three share a transfer is the model's choice, log 32). -/
def Statement.ClrTransferEnds : Prop :=
  ∀ (dt work : Nat) (x : Pass) (l : RingLine) (left : List Point) (wanted : Point → Prop) (size traffic : Point → Nat)
    (moved : List Point → Nat) (s e : State),
    e = s.elapse dt → e.rng.inProgress = some ⟨.clr, true⟩ → e.clr.pass = some x → e.passesOver x l →
    left = l.points.drop x.done → left ≠ [] →
    (∀ p, wanted p ↔ x.kind = .firstPass ∨ (p.colourState = .pending ∧
      ∀ id, x.kind = .task id → p.colourTag = BitVec.ofNat 8 id)) →
    (∀ p, size p = 12 + 8 * p.echoes.length) → (∀ p, ¬ wanted p → traffic p = size p) →
    (∀ p q, wanted p → evaluate e.scn.params e.clr e.exs p = (q, none) → traffic p = size p + size p) →
    (∀ p q k, wanted p → evaluate e.scn.params e.clr e.exs p = (q, some k) → traffic p = size p + 3 + size p) →
    (∀ ps, moved ps = (ps.map traffic).sum) →
    ∃ k, k ≤ work ∧ k ≤ left.length ∧ moved (left.take k) ≤ 1024 ∧
      (k < work → k < left.length → 1024 < moved (left.take (k + 1))) ∧
      exec (.dramTransferEnd dt work) s =
        .next (State.settle (State.colourPoints k { e with rng := { e.rng with inProgress := none } }))

/-- How a pass deals with its next record. A first pass evaluates it; a step evaluates a PENDING point, that of a task only
one with the task's tag, and passes over the others. The three colour fields are written, the slot whose cell was read is
pinned, and the tally counts points made PENDING in a first pass and points no longer PENDING in a step. -/
def Statement.PointDealtWith : Prop :=
  (∀ s : State, State.colourPoints 0 s = s) ∧ (∀ (n : Nat) (s : State), State.colourPoints (n + 1) s =
    State.colourPoints n s.colourNext) ∧
  (∀ (s : State) (x : Pass) (l : RingLine) (p p' : Point) (cell : Option Nat) (wanted : Prop) (write : RingLine → RingLine)
    (c : Clr), s.clr.pass = some x → s.passesOver x l → l.points[x.done]? = some p →
    (wanted ↔ x.kind = .firstPass ∨ (p.colourState = .pending ∧
      ∀ id, x.kind = .task id → p.colourTag = BitVec.ofNat 8 id)) →
    evaluate s.scn.params s.clr s.exs p = (p', cell) →
    (∀ y, write y = { y with points := y.points.modify x.done (fun q => { q with
      colourState := p'.colourState, colour := p'.colour, colourTag := p'.colourTag }) }) →
    c = { s.clr with
      slots := s.clr.slots.map (fun t => if cell = some t.slot then { t with pins := 1 } else t)
      pass := some { x with
        done := x.done + 1
        tally := x.tally +
          (if decide (p'.colourState = .pending) = decide (x.kind = .firstPass) then 1 else 0) } } →
    (¬ wanted → s.colourNext = { s with clr := { s.clr with pass := some { x with done := x.done + 1 } } }) ∧
    (wanted → x.kind = .firstPass → s.colourNext = { s with clr := c, rng := { s.rng with
      closed := s.rng.closed.map (fun y => if y.line.header.lineNumber = x.line then { y with line := write y.line } else y) } }) ∧
    (wanted → x.kind ≠ .firstPass → s.colourNext = { s with clr := c, rng := { s.rng with
      committed := s.rng.committed.map (fun y => if y.header.lineNumber = x.line then write y else y) } }))

/-- What the colour engine chooses, what one of its transfers does, and how each point record is dealt with. -/
def Obligations.ColourWork : Prop :=
  Statement.EngineChooses ∧ Statement.ClrTransferEnds ∧ Statement.PointDealtWith

/-! ### Exposures (chapter 6) -/

/-- EXPOSURE DROP, by the role and by the state of the named record (R115). A drop queues the exposure's back-fill task, or sets
the sweep mark and counts an overflow when 64 tasks wait (R140); its next state is that at the end of the step, where an idle
engine and an idle DRAM go to work (R94; that they do so in this step is the model's deduction, log 7). -/
def Obligations.ExposureDropCommand : Prop :=
  ∀ (dt : Nat) (p : PortId) (tag : Tag) (id : BitVec 32) (s e : State), e = s.elapse dt → e.ready p tag →
    (¬ e.isImaging p → exec (.exposureDrop dt p tag id) s = .next (e.refused p tag .role none)) ∧
    (e.isImaging p → (∀ x ∈ e.exs.log, x.id ≠ id.toNat) →
      exec (.exposureDrop dt p tag id) s = .next (e.refused p tag .gone none)) ∧
    (∀ (before after : List Exposure) (x : Exposure), e.isImaging p → e.exs.log = before ++ x :: after →
      (∀ y ∈ before, y.id ≠ x.id) → (∀ y ∈ after, y.id ≠ x.id) → x.id = id.toNat →
      ((x.state = .triggered ∨ x.state = .loading) →
        exec (.exposureDrop dt p tag id) s = .next (e.refused p tag .state none)) ∧
      ((x.state = .tiled ∨ x.state = .expired ∨ x.state = .dropped ∨ x.state = .missed) →
        exec (.exposureDrop dt p tag id) s = .next (e.refused p tag .arg none)) ∧
      (x.state = .exposed → exec (.exposureDrop dt p tag id) s = .next (State.settle { e.replied p tag .done with
        exs := { e.exs with log := before ++ { x with state := .dropped, deadline := none, held := none } :: after }
        clr := if e.clr.backfillQueue.length < 64 then { e.clr with backfillQueue := e.clr.backfillQueue ++ [x.id] }
          else { e.clr with sweepMark := true, counters := { e.clr.counters with
            backfillOverflows := bump e.clr.counters.backfillOverflows 1 } } })))

/-- A travel change as EXS takes it. In RUNNING, with the span not reached: in STATIONS mode a forward change reaches the
stations from the next one on that lie at or below the travel, each a trigger cause, and a backward one none; in PERIODIC mode
a forward change counts down, to a cause and the interval again, and a backward one up to the interval; in OFF none counts.
Outside RUNNING, and at the change that ends the span (log 12), EXS does not change. -/
def Statement.TravelTriggers : Prop :=
  ∀ (dt : Nat) (dir : Dir) (active : Bool) (travel : BitVec 64) (reached : Bool) (s e : State), e = s.elapse dt →
    travel = (if dir = .forward then e.ang.travel + 1 else e.ang.travel - 1) →
    reached = (decide (e.scn.params.azimuthSpan ≠ 0) && decide (e.scn.params.azimuthSpan ≤ travel.toInt.natAbs * 256)) →
    ∃ t : State, exec (.quadratureEdge dt .azimuth (if dir = .forward then .forward else .backward) active) s = .next t ∧
      (e.scn.state ≠ .running ∨ reached = true ∨ e.exs.setup.mode = .off ∨ (e.exs.setup.mode = .stations ∧ dir = .backward) →
        t.exs = e.exs) ∧
      (e.scn.state = .running → reached = false → e.exs.setup.mode = .stations → dir = .forward →
        t.exs = (Nat.repeat (fun u : State => ({ u with exs := { u.exs with
            nextStation := u.exs.nextStation + 1 } } : State).triggerCause)
          ((e.exs.stations.drop e.exs.nextStation).takeWhile (fun v : Nat => decide ((v : Int) ≤ travel.toInt * 256))).length
          e).exs) ∧
      (e.scn.state = .running → reached = false → e.exs.setup.mode = .periodic → 1 ≤ e.exs.periodic →
        e.exs.periodic ≤ e.exs.setup.interval →
        (dir = .forward → 2 ≤ e.exs.periodic → t.exs = { e.exs with periodic := e.exs.periodic - 1 }) ∧
        (dir = .forward → e.exs.periodic = 1 → t.exs =
          { (({ e with exs := { e.exs with periodic := 0 } } : State).triggerCause).exs with
            periodic := e.exs.setup.interval }) ∧
        (dir = .backward → t.exs = { e.exs with periodic := min (e.exs.periodic + 1) e.exs.setup.interval }))

/-- At entry to RUNNING the next station is the first and the periodic counter the interval; in STATIONS mode the stations of
value 0 are reached at the entry itself. -/
def Statement.StationsAtEntry : Prop :=
  ∀ (dt : Nat) (t0 : Time) (s e base : State), e = s.elapse dt → e.scn.state = .armed → e.scn.inBand = 1 →
    e.eca.link = .up → e.ang.mirror.armed = true → e.ang.prevIndex = some t0 →
    (((e.tb - t0).toNat : Int) - (e.scn.params.nominalMs * 256000000 : Nat)).natAbs ≤ e.scn.params.toleranceUs * 256000 →
    base = { e with exs := { e.exs with nextStation := 0, periodic := e.exs.setup.interval } } →
    ∃ t : State, exec (.quadratureEdge dt .mirror .forward true) s = .next t ∧
      (e.exs.setup.mode ≠ .stations → t.exs = base.exs) ∧
      (e.exs.setup.mode = .stations → t.exs = (Nat.repeat (fun u : State => ({ u with exs := { u.exs with
          nextStation := u.exs.nextStation + 1 } } : State).triggerCause)
        (e.exs.stations.takeWhile (fun v => decide (v ≤ 0))).length base).exs)

/-- A trigger cause fires, giving the next exposure id, unless the counter has stopped, a record is TRIGGERED or the log is
full of live records; a skip counts and raises NO-EXPOSURE. In a full log the oldest terminal record makes room. The
pulse of TRIGGER is counted (the model's field, log 17). -/
def Statement.TriggerCause : Prop :=
  ∀ s : State,
    ((s.exs.idCounter = 4294967295 ∨ (∃ x ∈ s.exs.log, x.state = .triggered) ∨
        (64 ≤ s.exs.log.length ∧ ∀ x ∈ s.exs.log, x.state.isTerminal = false)) →
      s.triggerCause = ({ s with exs := { s.exs with counters := { s.exs.counters with
        skippedTriggers := bump s.exs.counters.skippedTriggers 1 } } } : State).raiseAll evNoExposure) ∧
    (s.exs.idCounter ≠ 4294967295 → (∀ x ∈ s.exs.log, x.state ≠ .triggered) → s.exs.log.length < 64 →
      s.triggerCause = { s with exs := { s.exs with
        idCounter := s.exs.idCounter + 1
        triggerPulses := s.exs.triggerPulses + 1
        log := s.exs.log ++ [{
          id := s.exs.idCounter + 1, triggerTime := s.tb, start := none, endTime := none, mid := none, azMid := none,
          window := none, state := .triggered, slot := none,
          strobe := some ⟨s.tb, s.exs.setup.strobeTimeoutUs * 256000⟩, deadline := none, held := none }] } }) ∧
    (∀ (before after : List Exposure) (x : Exposure), s.exs.idCounter ≠ 4294967295 →
      (∀ y ∈ s.exs.log, y.state ≠ .triggered) → 64 ≤ s.exs.log.length → s.exs.log = before ++ x :: after →
      (∀ y ∈ before, y.state.isTerminal = false) → x.state.isTerminal = true →
      s.triggerCause = { s with exs := { s.exs with
        idCounter := s.exs.idCounter + 1
        triggerPulses := s.exs.triggerPulses + 1
        log := before ++ after ++ [{
          id := s.exs.idCounter + 1, triggerTime := s.tb, start := none, endTime := none, mid := none, azMid := none,
          window := none, state := .triggered, slot := none,
          strobe := some ⟨s.tb, s.exs.setup.strobeTimeoutUs * 256000⟩, deadline := none, held := none }] } })

/-- A STROBE rise and a STROBE fall, for a TRIGGERED record, which is the first such record of the log, and for none. -/
def Statement.StrobeEdges : Prop :=
  ∀ (dt : Nat) (s e : State), e = s.elapse dt →
    ((∀ x ∈ e.exs.log, x.state ≠ .triggered) →
      exec (.strobeRise dt) s = .next { e with exs := { e.exs with counters := { e.exs.counters with
        spontaneousStrobes := bump e.exs.counters.spontaneousStrobes 1 } } } ∧
      exec (.strobeFall dt) s = .next e) ∧
    (∀ (before after : List Exposure) (x : Exposure), e.exs.log = before ++ x :: after →
      (∀ y ∈ before, y.state ≠ .triggered ∧ y.id ≠ x.id) → (∀ y ∈ after, y.id ≠ x.id) → x.state = .triggered →
      exec (.strobeRise dt) s =
        .next { e with exs := { e.exs with log := before ++ { x with start := some e.tb } :: after } } ∧
      (x.start = none → exec (.strobeFall dt) s = .next { e with exs := { e.exs with counters := { e.exs.counters with
        spontaneousStrobes := bump e.exs.counters.spontaneousStrobes 1 } } }) ∧
      (∀ (ts mid : Time) (az : Angle), x.start = some ts → mid = ts + BitVec.ofNat 64 ((e.tb - ts).toNat / 2) →
        az = e.ang.azimuthQuery mid →
        exec (.strobeFall dt) s = .next (({ e with exs := { e.exs with log := before ++ { x with
          endTime := some e.tb
          mid := some mid
          azMid := some az
          window := some ⟨BitVec.ofInt 24 (az.toNat + e.exs.setup.azOffset - e.exs.setup.halfWidth),
            2 * e.exs.setup.halfWidth, BitVec.ofNat 24 e.exs.setup.mLow, BitVec.ofNat 24 e.exs.setup.mHigh⟩
          state := .exposed
          strobe := none
          deadline := some ⟨e.tb, e.exs.setup.tileDeadlineS * 256000000000⟩ } :: after } } : State).raiseAll evExposed)))

/-- The strobe timeout of the TRIGGERED record: MISSED, counted, NO-EXPOSURE raised; a start already taken stays. -/
def Statement.StrobeTimeout : Prop :=
  ∀ (dt : Nat) (before after : List Exposure) (x : Exposure) (r : TimerRun) (s e : State), e = s.elapse dt →
    e.exs.log = before ++ x :: after → (∀ y ∈ before, y.state ≠ .triggered ∧ y.id ≠ x.id) → (∀ y ∈ after, y.id ≠ x.id) →
    x.state = .triggered → x.strobe = some r → r.length ≤ (e.tb - r.start).toNat →
    exec (.strobeTimeoutExpiry dt) s = .next (({ e with exs := { e.exs with
      log := before ++ { x with state := .missed, strobe := none } :: after
      counters := { e.exs.counters with missedExposures := bump e.exs.counters.missedExposures 1 } } } : State).raiseAll
        evNoExposure)

/-- The tile deadline of an EXPOSED record: EXPIRED, counted, EXPIRED raised, the back-fill queued, or the sweep mark set
with a full queue. -/
def Statement.TileDeadlineExpiry : Prop :=
  ∀ (dt : Nat) (id : BitVec 32) (before after : List Exposure) (x : Exposure) (r : TimerRun) (s e : State),
    e = s.elapse dt → e.exs.log = before ++ x :: after → (∀ y ∈ before, y.id ≠ x.id) → (∀ y ∈ after, y.id ≠ x.id) →
    x.id = id.toNat → x.state = .exposed → x.deadline = some r → r.length ≤ (e.tb - r.start).toNat →
    exec (.tileDeadlineExpiry dt id) s = .next (State.settle { (({ e with exs := { e.exs with
        log := before ++ { x with state := .expired, deadline := none, held := none } :: after
        counters := { e.exs.counters with expiredExposures := bump e.exs.counters.expiredExposures 1 } } } : State).raiseAll
          evExpired) with
      clr := if e.clr.backfillQueue.length < 64 then { e.clr with backfillQueue := e.clr.backfillQueue ++ [x.id] }
        else { e.clr with sweepMark := true, counters := { e.clr.counters with
          backfillOverflows := bump e.clr.counters.backfillOverflows 1 } } })

/-- A travel change, a trigger cause, the strobe, its timeout and the tile deadline. -/
def Obligations.LifeOfAnExposure : Prop :=
  Statement.TravelTriggers ∧ Statement.StationsAtEntry ∧ Statement.TriggerCause ∧ Statement.StrobeEdges ∧
    Statement.StrobeTimeout ∧ Statement.TileDeadlineExpiry

/-! ### Tiles and colour (chapter 7) -/

/-- TILE LOAD at its command block: BUSY while another of the same port is in flight, else it waits for its descriptor,
with 0 read as 256 in W and H. -/
def Statement.TileLoadBegins : Prop :=
  ∀ (dt : Nat) (p : PortId) (tag : Tag) (id : BitVec 32) (priority w h : Byte) (s e : State), e = s.elapse dt →
    e.ready p tag → e.isImaging p →
    ((∀ x j, (e.port p).tags.get x = some j → j.isTileLoad = false) →
      exec (.tileLoad dt p tag id priority w h) s = .next (e.held p tag (.tileDescriptor ⟨id.toNat, priority.toNat,
        if w.toNat = 0 then 256 else w.toNat, if h.toNat = 0 then 256 else h.toNat⟩ []) [])) ∧
    ((∃ x j, (e.port p).tags.get x = some j ∧ j.isTileLoad = true) →
      exec (.tileLoad dt p tag id priority w h) s = .next (e.replied p tag .busy))

/-- The 12th descriptor byte of a TILE LOAD that passes every test, whatever was gathered before: the lowest FREE slot is
LOADING with the window, the exposure is LOADING with its deadline's remaining time held, and the reply is ACCEPTED. The bytes
of the frame behind the descriptor are cells and go to the tile loader, behind those that wait (log 26), but for those beyond
the tile's last. -/
def Statement.TileAccepted : Prop :=
  ∀ (dt : Nat) (p : PortId) (tag : Tag) (ops : TileOperands) (b payload d cells : List Byte) (w : AngularWindow) (x : Exposure)
    (r : TimerRun) (before after : List Exposure) (k : Nat) (s e : State), e = s.elapse dt → (e.port p).link = .up →
    1 ≤ payload.length → payload.length ≤ 1024 → (e.port p).tags.get tag = some (.tileDescriptor ops b) →
    12 ≤ (b ++ payload).length → d = (b ++ payload).take 12 →
    cells = ((b ++ payload).drop 12).take (ops.w * ops.h * 3) →
    w = ⟨BitVec.ofNat 24 (leNat (d.take 3)), leNat ((d.drop 3).take 3), BitVec.ofNat 24 (leNat ((d.drop 6).take 3)),
      BitVec.ofNat 24 (leNat ((d.drop 9).take 3))⟩ →
    ops.priority ≤ 3 → 1 ≤ w.azWidth → w.azWidth ≤ 8388608 → w.mLow.toNat < w.mHigh.toNat →
    e.exs.log = before ++ x :: after → (∀ y ∈ before, y.id ≠ x.id) → (∀ y ∈ after, y.id ≠ x.id) →
    x.id = ops.exposure → x.state = .exposed → x.deadline = some r →
    k < 48 → e.clr.slot k = none → (∀ j, j < k → e.clr.slot j ≠ none) →
    exec (.dataOut dt p tag payload) s = .next (State.settle { e.withPort p { e.port p with
        tags := (e.port p).tags.set tag (some (.tileCells k))
        outgoing := (e.port p).outgoing ++ [acceptedFrame tag] } with
      clr := { e.clr with
        slots := insertSlot
          ⟨k, .loading, ops.exposure, w, ops.w, ops.h, ops.priority, 0, some ⟨p, tag⟩, cells.length, 0⟩ e.clr.slots
        loader := e.clr.loader ++ (if cells = [] then [] else [⟨k, cells⟩]) }
      exs := { e.exs with log := before ++ { x with
        state := .loading
        slot := some k
        held := some (r.length - (e.tb - r.start).toNat)
        deadline := none } :: after } })

/-- The 12th descriptor byte of a TILE LOAD that fails a test, whatever was gathered before: the load ends CHECK with the sense
of the first failing one, no slot and no record changes, and bytes behind the descriptor go nowhere. -/
def Statement.TileDescriptorRefused : Prop :=
  ∀ (dt : Nat) (p : PortId) (tag : Tag) (ops : TileOperands) (b payload d : List Byte) (w : AngularWindow)
    (ends : SenseClass → Option Nat → State) (s e : State), e = s.elapse dt → (e.port p).link = .up →
    1 ≤ payload.length → payload.length ≤ 1024 → (e.port p).tags.get tag = some (.tileDescriptor ops b) →
    12 ≤ (b ++ payload).length → d = (b ++ payload).take 12 →
    w = ⟨BitVec.ofNat 24 (leNat (d.take 3)), leNat ((d.drop 3).take 3), BitVec.ofNat 24 (leNat ((d.drop 6).take 3)),
      BitVec.ofNat 24 (leNat ((d.drop 9).take 3))⟩ →
    (∀ cls info, ends cls info = State.settle (e.withPort p { (e.port p).idleTag tag with
      sense := senseOf tag cls 0 info
      outgoing := ((e.port p).idleTag tag).outgoing ++ [checkFrame tag cls 0] })) →
    (3 < ops.priority → exec (.dataOut dt p tag payload) s = .next (ends .arg (some 1))) ∧
    (ops.priority ≤ 3 → (w.azWidth = 0 ∨ 8388608 < w.azWidth) →
      exec (.dataOut dt p tag payload) s = .next (ends .arg (some 5))) ∧
    (ops.priority ≤ 3 → 1 ≤ w.azWidth → w.azWidth ≤ 8388608 → w.mHigh.toNat ≤ w.mLow.toNat →
      exec (.dataOut dt p tag payload) s = .next (ends .arg (some 7))) ∧
    (ops.priority ≤ 3 → 1 ≤ w.azWidth → w.azWidth ≤ 8388608 → w.mLow.toNat < w.mHigh.toNat →
      ((∀ x ∈ e.exs.log, x.id ≠ ops.exposure) → exec (.dataOut dt p tag payload) s = .next (ends .gone none)) ∧
      (∀ (before after : List Exposure) (x : Exposure), e.exs.log = before ++ x :: after →
        (∀ y ∈ before, y.id ≠ x.id) → x.id = ops.exposure →
        (x.state ≠ .exposed → exec (.dataOut dt p tag payload) s = .next (ends .state none)) ∧
        (x.state = .exposed → (∀ k, k < 48 → e.clr.slot k ≠ none) →
          exec (.dataOut dt p tag payload) s = .next (ends .full none))))

/-- Cell bytes that arrive for an accepted TILE LOAD which still needs some are given to the tile loader, behind those that
wait (log 26); the bytes beyond the tile's last are ignored. -/
def Statement.CellBytesArrive : Prop :=
  ∀ (dt k : Nat) (p : PortId) (tag : Tag) (payload cells : List Byte) (t : TileSlot) (s e : State), e = s.elapse dt →
    (e.port p).link = .up → 1 ≤ payload.length → payload.length ≤ 1024 → (e.port p).tags.get tag = some (.tileCells k) →
    e.clr.slot k = some t → t.received < t.w * t.h * 3 → cells = payload.take (t.w * t.h * 3 - t.received) →
    exec (.dataOut dt p tag payload) s = .next (State.settle { e with clr := { e.clr with
      slots := e.clr.slots.map (fun y => if y.slot = k then { y with received := y.received + cells.length } else y)
      loader := e.clr.loader ++ [⟨k, cells⟩] } })

/-- TILE LOAD at its command block, at its descriptor and as its cells arrive. -/
def Obligations.TileLoadTaken : Prop :=
  Statement.TileLoadBegins ∧ Statement.TileAccepted ∧ Statement.TileDescriptorRefused ∧ Statement.CellBytesArrive

/-- TILE LOAD's last transfer ends: the slot is VALID with no owner and is inserted in the sector lists, its bytes stand in
the tile area, the exposure is TILED, its back-fill is queued, or the sweep mark set with a full queue, and the load ends DONE
(the end is the last transfer's, log 6). -/
def Obligations.TileLoadCompletes : Prop :=
  ∀ (dt slot : Nat) (chunk : LoadChunk) (rest : List LoadChunk) (t : TileSlot) (o : PortTag) (s e : State),
    e = s.elapse dt → e.rng.inProgress = some ⟨.tileLoader slot, true⟩ → e.clr.loader = chunk :: rest →
    e.clr.slot slot = some t → Memory.wf e.clr.tileArea → 1 ≤ chunk.bytes.length → chunk.bytes.length ≤ 1024 →
    t.written + chunk.bytes.length = t.w * t.h * 3 → t.owner = some o →
    ∃ u : State, exec (.tileLoadComplete dt) s = .next u.settle ∧
      (∃ t', u.clr.slot slot = some t' ∧ t'.state = .valid ∧ t'.owner = none ∧ t'.window = t.window ∧
        t'.exposure = t.exposure ∧ t'.priority = t.priority) ∧
      (∀ i, i < chunk.bytes.length → Memory.read u.clr.tileArea (slot * 196608 + t.written + i) = chunk.bytes.getD i 0) ∧
      (∀ a, (a < slot * 196608 + t.written ∨ slot * 196608 + t.written + chunk.bytes.length ≤ a) →
        Memory.read u.clr.tileArea a = Memory.read e.clr.tileArea a) ∧
      u.clr.sectors = (e.clr.insertInIndex t).sectors ∧
      u.clr.counters.sectorExclusions = (e.clr.insertInIndex t).counters.sectorExclusions ∧
      (∀ x ∈ u.exs.log, x.id = t.exposure → x.state = .tiled ∧ x.deadline = none) ∧
      (e.clr.backfillQueue.length < 64 → u.clr.backfillQueue = e.clr.backfillQueue ++ [t.exposure] ∧
        u.clr.sweepMark = e.clr.sweepMark) ∧
      (64 ≤ e.clr.backfillQueue.length → u.clr.backfillQueue = e.clr.backfillQueue ∧ u.clr.sweepMark = true ∧
        u.clr.counters.backfillOverflows = bump e.clr.counters.backfillOverflows 1) ∧
      u.clr.loader = rest ∧ (u.port o.port).tags.get o.tag = none ∧
      ((e.port o.port).link = .up → replyFrame o.tag .done ∈ (u.port o.port).outgoing) ∧
      u.rng.inProgress = none ∧ u.tb = e.tb ∧ u.scn = e.scn ∧ u.lnb = e.lnb ∧ u.pending = e.pending

/-- TILE RETIRE, from a role other than IMAGING refused ROLE, else by the slot's state: FREE or LOADING, ARG with info 1;
another exposure id, GONE; RETIRING, STATE; VALID without a pin, FREE at once with DONE; VALID with a pin, RETIRING with
ACCEPTED. The sectors of the window are rebuilt from the slots still VALID. -/
def Obligations.TileRetireCommand : Prop :=
  ∀ (dt : Nat) (p : PortId) (tag : Tag) (slot : Byte) (id : BitVec 32) (s e : State), e = s.elapse dt → e.ready p tag →
    (¬ e.isImaging p → exec (.tileRetire dt p tag slot id) s = .next (e.refused p tag .role none)) ∧
    (e.isImaging p → 47 < slot.toNat ∨ e.clr.slot slot.toNat = none →
      exec (.tileRetire dt p tag slot id) s = .next (e.refused p tag .arg (some 1))) ∧
    (∀ t, e.isImaging p → slot.toNat ≤ 47 → e.clr.slot slot.toNat = some t →
      (t.state = .loading → exec (.tileRetire dt p tag slot id) s = .next (e.refused p tag .arg (some 1))) ∧
      (t.state ≠ .loading → t.exposure ≠ id.toNat →
        exec (.tileRetire dt p tag slot id) s = .next (e.refused p tag .gone none)) ∧
      (t.state = .retiring → t.exposure = id.toNat →
        exec (.tileRetire dt p tag slot id) s = .next (e.refused p tag .state none)) ∧
      (t.state = .valid → t.exposure = id.toNat → t.pins = 0 →
        exec (.tileRetire dt p tag slot id) s = .next { e.replied p tag .done with
          clr := Clr.rebuild { e.clr with slots := e.clr.slots.filter (fun x => decide (x.slot ≠ slot.toNat)) }
            t.window }) ∧
      (t.state = .valid → t.exposure = id.toNat → t.pins ≠ 0 →
        exec (.tileRetire dt p tag slot id) s =
          .next { e.held p tag (.tileRetire slot.toNat) [acceptedFrame tag] with
            clr := Clr.rebuild { e.clr with slots := e.clr.slots.map (fun x =>
              if x.slot = slot.toNat then { x with state := .retiring, owner := some ⟨p, tag⟩ } else x) } t.window }))

/-- A slot that has become VALID is inserted in the list of each sector its window overlaps, at its rank (higher priority,
then higher exposure id): in a list of fewer than 8 at once, in a list of 8 in place of the last when it ranks above it, else
not; the last two count as exclusions. A window overlaps a sector whose first azimuth it holds or which holds its start. -/
def Statement.SectorInsertion : Prop :=
  ∀ (c d : Clr) (t : TileSlot) (overlaps : Nat → Prop) [DecidablePred overlaps] (above : TileSlot → TileSlot → Prop),
    d = c.insertInIndex t →
    (∀ k, overlaps k ↔ (BitVec.ofNat 24 (k * 262144) - t.window.azStart).toNat < t.window.azWidth ∨
      t.window.azStart.toNat / 262144 = k) →
    (∀ x y, above x y ↔ y.priority < x.priority ∨ (x.priority = y.priority ∧ y.exposure < x.exposure)) →
    (∃ sectors counters, d = { c with sectors := sectors, counters := counters }) ∧
    d.sectors.length = c.sectors.length ∧
    d.counters.sectorExclusions = min (c.counters.sectorExclusions + (List.range c.sectors.length).countP (fun k =>
      decide (overlaps k) && decide (8 ≤ ((c.sectors.getD k []).filterMap c.slot).length))) 4294967295 ∧
    (∀ (k : Nat) (list : List TileSlot), k < c.sectors.length → list = (c.sectors.getD k []).filterMap c.slot →
      (¬ overlaps k → d.sectors.getD k [] = c.sectors.getD k []) ∧
      (∀ higher lower, overlaps k → list.length < 8 → list = higher ++ lower → (∀ x ∈ higher, ¬ above t x) →
        (∀ x rest, lower = x :: rest → above t x) →
        d.sectors.getD k [] = (higher ++ t :: lower).map TileSlot.slot) ∧
      (∀ higher lower last, overlaps k → 8 ≤ list.length → list = higher ++ lower ++ [last] → above t last →
        (∀ x ∈ higher, ¬ above t x) → (∀ x rest, lower = x :: rest → above t x) →
        d.sectors.getD k [] = (higher ++ t :: lower).map TileSlot.slot) ∧
      (∀ others last, overlaps k → 8 ≤ list.length → list = others ++ [last] → ¬ above t last →
        d.sectors.getD k [] = c.sectors.getD k []))

/-- When a slot leaves VALID, each sector its window overlaps is set to the best 8, in rank order, of the slots that are VALID
and overlap it; other sectors, and everything else, stay. -/
def Statement.SectorRebuild : Prop :=
  ∀ (c d : Clr) (w : AngularWindow) (overlaps : AngularWindow → Nat → Prop) [∀ v, DecidablePred (overlaps v)],
    d = c.rebuild w →
    (∀ v k, overlaps v k ↔ (BitVec.ofNat 24 (k * 262144) - v.azStart).toNat < v.azWidth ∨
      v.azStart.toNat / 262144 = k) →
    (∃ sectors, d = { c with sectors := sectors }) ∧ d.sectors.length = c.sectors.length ∧
    (∀ k, k < c.sectors.length →
      (¬ overlaps w k → d.sectors.getD k [] = c.sectors.getD k []) ∧
      (overlaps w k → ∃ ranked : List TileSlot, d.sectors.getD k [] = (ranked.take 8).map TileSlot.slot ∧
        ranked.Perm (c.slots.filter (fun t => decide (t.state = .valid) && decide (overlaps t.window k))) ∧
        ranked.Pairwise (fun x y => ¬ (x.priority < y.priority ∨ (x.priority = y.priority ∧ x.exposure < y.exposure)))))

/-- The sector index: the insertion of a slot that has become VALID, and the rebuild when one leaves it. -/
def Obligations.SectorIndex : Prop :=
  Statement.SectorInsertion ∧ Statement.SectorRebuild

/-- The colour of one point. Its azimuth is shifted by parallax x 10 / range, rounded half up and clamped to one sector
either way, where the range is that of the first echo, or the default for no echo or range 0. The first tile listed in the
sector of that azimuth whose window holds the direction gives the colour of its cell; else the point is PENDING on the lowest
exposure EXPOSED or LOADING whose window holds it; else ABSENT. -/
def Obligations.ColourOfAPoint : Prop :=
  ∀ (q : ScanParams) (c : Clr) (x : Exs) (p : Point) (range : Nat) (shift : Int) (a : Angle) (list : List TileSlot)
    (holds : AngularWindow → Prop) (waits : Exposure → Prop),
    (p.echoes = [] → range = q.defaultColourRange) →
    (∀ y rest, p.echoes = y :: rest → range = if y.range.toNat = 0 then q.defaultColourRange else y.range.toNat) →
    shift = max (-262144) (min 262144 ((2 * (q.parallax * 10) + range) / (2 * range))) →
    a = BitVec.ofInt 24 (p.a.toNat + shift) → list = (c.sectors.getD (a.toNat / 262144) []).filterMap c.slot →
    (∀ w, holds w ↔ (a - w.azStart).toNat < w.azWidth ∧ w.mLow.toNat ≤ p.m.toNat ∧ p.m.toNat < w.mHigh.toNat) →
    (∀ y, waits y ↔ (y.state = .exposed ∨ y.state = .loading) ∧ ∃ w, y.window = some w ∧ holds w) →
    (x.log.map Exposure.id).Pairwise (· < ·) →
    (∀ (before after : List TileSlot) (t : TileSlot) (column row address : Nat), list = before ++ t :: after →
      (∀ y ∈ before, ¬ holds y.window) → holds t.window →
      column = (a - t.window.azStart).toNat * t.w / t.window.azWidth →
      row = (p.m.toNat - t.window.mLow.toNat) * t.h / (t.window.mHigh.toNat - t.window.mLow.toNat) →
      address = t.slot * 196608 + (row * t.w + column) * 3 →
      evaluate q c x p = ({ p with
        colourState := .present
        colour := ⟨Memory.read c.tileArea address, Memory.read c.tileArea (address + 1),
          Memory.read c.tileArea (address + 2)⟩
        colourTag := BitVec.ofNat 8 t.exposure }, some t.slot)) ∧
    (∀ y ∈ x.log, (∀ t ∈ list, ¬ holds t.window) → waits y → (∀ z ∈ x.log, waits z → y.id ≤ z.id) →
      evaluate q c x p = ({ p with
        colourState := .pending, colour := ⟨0, 0, 0⟩, colourTag := BitVec.ofNat 8 y.id }, none)) ∧
    ((∀ t ∈ list, ¬ holds t.window) → (∀ y ∈ x.log, ¬ waits y) →
      evaluate q c x p = ({ p with colourState := .absent, colour := ⟨0, 0, 0⟩, colourTag := 0 }, none))

/-! ### Streams (chapter 8) -/

/-- STREAM OPEN on a CLOSED stream: the mode, both points one below the start line, the essential flag of a RECORDING port,
no LINES READ, an empty table, DONE, and READY when a line is deliverable at once. An OPEN stream is refused STATE; a code
that names no mode or no start is refused ARG with the operand's number. -/
def Statement.StreamOpenCommand : Prop :=
  ∀ (dt : Nat) (p : PortId) (tag : Tag) (mode start : Byte) (line : BitVec 32) (s e u : State) (n : Nat),
    e = s.elapse dt → e.ready p tag →
    (1 < mode.toNat → exec (.streamOpen dt p tag mode start line) s = .next (e.refused p tag .arg (some 1))) ∧
    (mode.toNat ≤ 1 → 2 < start.toNat →
      exec (.streamOpen dt p tag mode start line) s = .next (e.refused p tag .arg (some 2))) ∧
    (mode.toNat ≤ 1 → start.toNat ≤ 2 → (e.stream p).isOpen = true →
      exec (.streamOpen dt p tag mode start line) s = .next (e.refused p tag .state none)) ∧
    (mode.toNat ≤ 1 → start.toNat ≤ 2 → (e.stream p).isOpen = false →
      (start.toNat = 0 → n = ((e.rng.committed.head?.map (fun l => l.header.lineNumber)).getD 1)) →
      (start.toNat = 1 → n = ((e.rng.committed.getLast?.map (fun l => l.header.lineNumber)).getD 1)) →
      (start.toNat = 2 → line.toNat = 0 → n = ((e.rng.committed.head?.map (fun l => l.header.lineNumber)).getD 1)) →
      (start.toNat = 2 → line.toNat ≠ 0 →
        n = max line.toNat ((e.rng.committed.head?.map (fun l => l.header.lineNumber)).getD line.toNat)) →
      u = { e.replied p tag .done with
        str := e.str.set p ⟨true, if mode.toNat = 0 then .settled else .asis, n - 1, n - 1,
          decide ((e.port p).role = .recording), none, [], none⟩ } →
      exec (.streamOpen dt p tag mode start line) s =
        .next (if (u.deliverable p).isSome then u.raiseOn p evReady else u))

/-- STREAM CLOSE: with the stream CLOSED the reply is DONE and nothing else changes; with it OPEN the stream is CLOSED, its
table and mark empty, its mode and points kept, and an outstanding LINES READ ends CHECK ABORTED before the DONE, its transfer
no longer wanted. The essential flag is cleared (the model's deduction, log 23). -/
def Statement.StreamCloseCommand : Prop :=
  ∀ (dt : Nat) (p : PortId) (tag : Tag) (s e : State) (rng : Rng) (stream : Stream), e = s.elapse dt → e.ready p tag →
    rng = { e.rng with inProgress := e.rng.inProgress.map (fun y =>
        if y.owner = .reader p then { y with wanted := false } else y) } →
    stream = { e.stream p with isOpen := false, essential := false, read := none, table := [], unsure := none } →
    ((e.stream p).isOpen = false → exec (.streamClose dt p tag) s = .next (e.replied p tag .done).settle) ∧
    ((e.stream p).isOpen = true → (e.stream p).read = none →
      exec (.streamClose dt p tag) s = .next (State.settle { e.replied p tag .done with
        rng := rng, str := e.str.set p stream })) ∧
    (∀ r, (e.stream p).isOpen = true → (e.stream p).read = some r →
      exec (.streamClose dt p tag) s = .next (State.settle { e.withPort p { (e.port p).idleTag r.tag with
          sense := senseOf r.tag .aborted 0 none
          outgoing := ((e.port p).idleTag r.tag).outgoing ++ [checkFrame r.tag .aborted 0, replyFrame tag .done] } with
        rng := rng, str := e.str.set p stream }))

/-- STREAM OPEN and STREAM CLOSE. -/
def Obligations.StreamOpenAndClose : Prop :=
  Statement.StreamOpenCommand ∧ Statement.StreamCloseCommand

/-- Which line a stream would be given: the committed line with the lowest number above the read point, which a SETTLED
stream is given only when the line is SETTLED; a CLOSED stream has none. -/
def Statement.DeliverableLine : Prop :=
  ∀ (r : Rng) (st : Stream) (before after : List RingLine) (l : RingLine),
    (st.isOpen = false → deliverable r st = none) ∧
    ((∀ x ∈ r.committed, x.header.lineNumber ≤ st.readPoint) → deliverable r st = none) ∧
    (r.committed = before ++ l :: after → (∀ x ∈ before, x.header.lineNumber ≤ st.readPoint) →
      st.readPoint < l.header.lineNumber → st.isOpen = true →
      (st.mode = .asis → deliverable r st = some l) ∧
      (st.mode = .settled → l.header.colour = .settled → deliverable r st = some l) ∧
      (st.mode = .settled → l.header.colour = .pending → deliverable r st = none))

/-- LINES READ on an OPEN stream with none outstanding: with no line deliverable it waits, ACCEPTED; else it hands the 48
bytes of the line's header, in a frame of their own (log 9), and delivers it; on a line under a back-fill step it waits for
the step and hands nothing yet. With the stream CLOSED it is refused STATE, and with one outstanding it is answered BUSY. -/
def Statement.LinesReadCommand : Prop :=
  ∀ (dt : Nat) (p : PortId) (tag : Tag) (count : Byte) (s e : State) (lines : Nat), e = s.elapse dt → e.ready p tag →
    count.toNat ≤ 64 → lines = (if count.toNat = 0 then 64 else count.toNat) →
    ((e.stream p).isOpen = false → exec (.linesRead dt p tag count) s = .next (e.refused p tag .state none)) ∧
    ((e.stream p).isOpen = true → (e.stream p).read ≠ none →
      exec (.linesRead dt p tag count) s = .next (e.replied p tag .busy)) ∧
    ((e.stream p).isOpen = true → (e.stream p).read = none → e.deliverable p = none →
      exec (.linesRead dt p tag count) s = .next (State.settle { e.held p tag .linesRead [acceptedFrame tag] with
        str := e.str.set p { e.stream p with read := some ⟨tag, lines, .waiting⟩ } })) ∧
    (∀ l : RingLine, (e.stream p).isOpen = true → (e.stream p).read = none → e.deliverable p = some l →
      e.rng.lookup l.header.lineNumber = some l →
      ((∀ x, e.clr.pass = some x → x.kind = .firstPass ∨ x.line ≠ l.header.lineNumber) →
        exec (.linesRead dt p tag count) s = .next (State.settle {
          e.held p tag .linesRead [⟨tag, .dataIn l.header.bytes, false⟩] with
          str := e.str.set p { e.stream p with
            read := some ⟨tag, lines, .delivering l.header.lineNumber true 48⟩ } })) ∧
      (∀ x, e.clr.pass = some x → x.kind ≠ .firstPass → x.line = l.header.lineNumber →
        exec (.linesRead dt p tag count) s = .next (State.settle { e.held p tag .linesRead [] with
          str := e.str.set p { e.stream p with
            read := some ⟨tag, lines, .delivering l.header.lineNumber false 0⟩ } })))

/-- A LINES READ that waits begins when it may: one that waits for a line when a line is deliverable, one that waits for a
back-fill step when none is on its line. It then hands the header and holds the line, or waits for a step that is on the line.
Any other reader does not change. -/
def Statement.WaitingReaderBegins : Prop :=
  ∀ (s : State) (p : PortId) (r : LinesRead) (l : RingLine) (under : Prop), (s.stream p).read = some r →
    s.rng.lookup l.header.lineNumber = some l → (s.port p).link = .up →
    (under ↔ ∃ x, s.clr.pass = some x ∧ x.kind ≠ .firstPass ∧ x.line = l.header.lineNumber) →
    (¬ under → (r.state = .waiting ∧ s.deliverable p = some l) ∨
        (∃ sent, r.state = .delivering l.header.lineNumber false sent) →
      s.beginRead p = { s.withPort p { s.port p with
          outgoing := (s.port p).outgoing ++ [⟨r.tag, .dataIn l.header.bytes, false⟩] } with
        str := s.str.set p { s.stream p with
          read := some ⟨r.tag, r.remaining, .delivering l.header.lineNumber true 48⟩ } }) ∧
    (under → r.state = .waiting → s.deliverable p = some l → s.beginRead p = { s with
      str := s.str.set p { s.stream p with
        read := some ⟨r.tag, r.remaining, .delivering l.header.lineNumber false 0⟩ } }) ∧
    (under → (∃ sent, r.state = .delivering l.header.lineNumber false sent) → s.beginRead p = s) ∧
    (r.state = .waiting → s.deliverable p = none → s.beginRead p = s) ∧
    (∀ n sent, r.state = .delivering n true sent → s.beginRead p = s)

/-- Which line is deliverable, what LINES READ does with it, and when a waiting one begins. -/
def Obligations.LinesReadTaken : Prop :=
  Statement.DeliverableLine ∧ Statement.LinesReadCommand ∧ Statement.WaitingReaderBegins

/-- The last byte of a delivered line has been sent (when that is, is log 10). The hold ends and the read point is the line;
a PENDING line delivered on an ASIS stream is watched, and in a full table its entry takes the place of the oldest WATCHING
one, or of the oldest of all, which counts and moves the unsure mark to the larger line. -/
def Statement.DeliveryCompletes : Prop :=
  ∀ (dt n : Nat) (p : PortId) (r : LinesRead) (l : RingLine) (s e : State), e = s.elapse dt →
    (e.port p).link = .up → (e.stream p).read = some r → r.state = .delivering n true l.size →
    e.rng.lookup n = some l → (∀ f ∈ (e.port p).outgoing, f.tag = r.tag → ∀ d, f.body ≠ .dataIn d) →
    ∃ u : State, exec (.lineDeliveryComplete dt p) s = .next u.settle ∧
      (u.stream p).readPoint = n ∧ (u.stream p).releasePoint = (e.stream p).releasePoint ∧
      (u.stream p).isOpen = (e.stream p).isOpen ∧
      ((e.stream p).mode = .settled ∨ l.header.colour = .settled → (u.stream p).table = (e.stream p).table ∧
        (u.stream p).unsure = (e.stream p).unsure) ∧
      ((e.stream p).mode = .asis → l.header.colour = .pending → (e.stream p).table.length < 64 →
        (u.stream p).table = (e.stream p).table ++ [⟨n, .watching⟩] ∧ (u.stream p).unsure = (e.stream p).unsure) ∧
      (∀ before x after, (e.stream p).mode = .asis → l.header.colour = .pending → 64 ≤ (e.stream p).table.length →
        (e.stream p).table = before ++ x :: after →
        (x.state = .watching ∧ ∀ y ∈ before, y.state ≠ .watching) ∨
          (before = [] ∧ ∀ y ∈ (e.stream p).table, y.state ≠ .watching) →
        (u.stream p).table = before ++ after ++ [⟨n, .watching⟩] ∧
        (u.stream p).unsure = some (max ((e.stream p).unsure.getD 0) x.line) ∧
        u.strCounters.checkEvictions = bump e.strCounters.checkEvictions 1) ∧
      (∀ q, q ≠ p → u.stream q = e.stream q ∧ u.port q = e.port q) ∧
      u.rng.committed = e.rng.committed ∧ u.clr = e.clr ∧ u.tb = e.tb ∧ u.scn = e.scn ∧ u.lnb = e.lnb ∧ u.exs = e.exs ∧
      u.pending = e.pending

/-- Then, when the LINES READ asked for no further line or none is deliverable, it ends DONE, and READY is raised when a line
is still deliverable; else it goes on with the next deliverable line, handing its 48-byte header in a frame of its own (the
model's choice, log 9) or waiting for a step on it. -/
def Statement.DeliveryGoesOn : Prop :=
  ∀ (dt n : Nat) (p : PortId) (r : LinesRead) (l : RingLine) (next : Option RingLine) (s e : State), e = s.elapse dt →
    (e.port p).link = .up → (e.stream p).read = some r → r.state = .delivering n true l.size →
    e.rng.lookup n = some l → (∀ f ∈ (e.port p).outgoing, f.tag = r.tag → ∀ d, f.body ≠ .dataIn d) →
    next = deliverable e.rng { e.stream p with readPoint := n } → 1 ≤ r.remaining →
    ∃ u : State, exec (.lineDeliveryComplete dt p) s = .next u.settle ∧
      (r.remaining = 1 ∨ next = none → (u.stream p).read = none ∧ (u.port p).tags.get r.tag = none ∧
        (u.port p).outgoing.getLast? = some (replyFrame r.tag .done) ∧
        (next ≠ none → if (u.atn.get p).frozen then EventSet.has (u.atn.get p).held evReady = true
          else EventSet.has (u.atn.get p).pending evReady = true)) ∧
      (∀ l', 2 ≤ r.remaining → next = some l' → e.rng.lookup l'.header.lineNumber = some l' →
        ((∀ x, e.clr.pass = some x → x.kind = .firstPass ∨ x.line ≠ l'.header.lineNumber) →
          (u.stream p).read = some ⟨r.tag, r.remaining - 1, .delivering l'.header.lineNumber true 48⟩ ∧
          u.port p = { e.port p with outgoing := (e.port p).outgoing ++ [⟨r.tag, .dataIn l'.header.bytes, false⟩] }) ∧
        (∀ x, e.clr.pass = some x → x.kind ≠ .firstPass → x.line = l'.header.lineNumber →
          (u.stream p).read = some ⟨r.tag, r.remaining - 1, .delivering l'.header.lineNumber false 0⟩ ∧
          u.port p = e.port p))

/-- The completion of a delivery, and what follows it. -/
def Obligations.LineDelivered : Prop :=
  Statement.DeliveryCompletes ∧ Statement.DeliveryGoesOn

/-- LINES RELEASE: with the stream CLOSED refused STATE; with it OPEN the release point becomes the larger of itself and
the smaller of n and the read point, DONE. -/
def Obligations.LinesReleaseCommand : Prop :=
  ∀ (dt : Nat) (p : PortId) (tag : Tag) (n : BitVec 32) (s e : State), e = s.elapse dt → e.ready p tag →
    ((e.stream p).isOpen = false → exec (.linesRelease dt p tag n) s = .next (e.refused p tag .state none)) ∧
    ((e.stream p).isOpen = true → exec (.linesRelease dt p tag n) s = .next { e.replied p tag .done with
      str := e.str.set p { e.stream p with
        releasePoint := max (e.stream p).releasePoint (min n.toNat (e.stream p).readPoint) } })

/-- LINES CHECK hands the unsure mark and the CHANGED lines in table order, in one DATA-IN frame (the division into frames is
log 9's; R161 says DATA-IN frames), keeps the WATCHING entries and clears the mark. -/
def Statement.LinesCheckCommand : Prop :=
  ∀ (dt : Nat) (p : PortId) (tag : Tag) (s e : State) (changed : List Nat), e = s.elapse dt → e.ready p tag →
    changed = ((e.stream p).table.filter (fun x => decide (x.state = .changed))).map CheckEntry.line →
    changed.length ≤ 64 →
    exec (.linesCheck dt p tag) s = .next { e.readOut p tag 0x44
        [leBytes 4 ((e.stream p).unsure.getD 0)
          ++ [(if (e.stream p).unsure.isSome then 1 else 0), BitVec.ofNat 8 changed.length, 0, 0]
          ++ changed.flatMap (leBytes 4)] with
      str := e.str.set p { e.stream p with
        table := (e.stream p).table.filter (fun x => !decide (x.state = .changed)), unsure := none } }

/-- LINE FIND: a criterion above 1 is refused ARG with info 2; else the first committed line at or above the start line
that matches gives MATCH with its number in the sense record, and with none the reply is DONE. Bits 6 and 7 of the mask
are ignored (log 28). -/
def Statement.LineFindCommand : Prop :=
  ∀ (dt : Nat) (p : PortId) (tag : Tag) (start : BitVec 32) (criterion : Byte) (az : BitVec 24) (mask value : Byte)
    (invert : Bool) (s e : State) (matchesLine : RingLine → Bool), e = s.elapse dt → e.ready p tag →
    (criterion.toNat = 0 → matchesLine = fun l =>
      (decide ((az - l.header.firstA).toNat ≤ (l.header.lastA - l.header.firstA).toNat)) ^^ invert) →
    (criterion.toNat = 1 → matchesLine = fun l =>
      (decide (BitVec.ofNat 8 l.header.flags.byte &&& (mask &&& 0x3F#8) = value &&& (mask &&& 0x3F#8))) ^^ invert) →
    (1 < criterion.toNat → exec (.lineFind dt p tag start criterion az mask value invert) s =
      .next (e.refused p tag .arg (some 2))) ∧
    (∀ (before after : List RingLine) (l : RingLine), criterion.toNat ≤ 1 → e.rng.committed = before ++ l :: after →
      (∀ x ∈ before, x.header.lineNumber < start.toNat ∨ matchesLine x = false) → start.toNat ≤ l.header.lineNumber →
      matchesLine l = true →
      exec (.lineFind dt p tag start criterion az mask value invert) s = .next (e.withPort p
        { (e.port p).sent [replyFrame tag .isMatch] with sense := ⟨.none, 0, l.header.lineNumber, true, tag⟩ })) ∧
    (criterion.toNat ≤ 1 → (∀ x ∈ e.rng.committed, x.header.lineNumber < start.toNat ∨ matchesLine x = false) →
      exec (.lineFind dt p tag start criterion az mask value invert) s = .next (e.withPort p
        { (e.port p).sent [replyFrame tag .done] with sense := ⟨.none, 0, 0, false, tag⟩ }))

/-- LINES CHECK and LINE FIND. -/
def Obligations.LinesCheckAndFind : Prop :=
  Statement.LinesCheckCommand ∧ Statement.LineFindCommand

/-! ### Invariants that every step keeps -/

/-- LASER PERMIT, the scan timers and the pending scan replies agree with the scan state. -/
def Obligations.ScanInvariantKept : Prop := ∀ s t : State, ScanInv s → step s = .next t → ScanInv t

/-- Counts within the turn, and edge histories of at most 32 records with strictly ascending times. -/
def Statement.EncoderInvariantKept : Prop := ∀ s t : State, EncoderInv s → step s = .next t → EncoderInv t

/-- The pulse history: its bound, when it is empty, the order of its ids and times, and its echo lists. -/
def Statement.PulseInvariantKept : Prop := ∀ s t : State, PulseInv s → step s = .next t → PulseInv t

/-- What the edge histories and the pulse history hold stays in order and within its bounds. -/
def Obligations.CaptureInvariantKept : Prop :=
  Statement.EncoderInvariantKept ∧ Statement.PulseInvariantKept

/-- Scan parameters, camera setup, mask list, station list and calibration table stay legal, whatever data blocks
arrive. -/
def Obligations.SetupInvariantKept : Prop := ∀ s t : State, SetupInv s → step s = .next t → SetupInv t

/-- The Point FIFO's bounds, the open line's bound and the line number counter's. -/
def Obligations.LineInvariantKept : Prop := ∀ s t : State, LineInv s → step s = .next t → LineInv t

/-- Ring occupancy never exceeds the ring size, and the closed-line list its 32 lines. -/
def Obligations.RingInvariantKept : Prop := ∀ s t : State, RingInv s → step s = .next t → RingInv t

/-- The exposure log: at most 64 records, ids strictly ascending and issued, at most one TRIGGERED. -/
def Obligations.ExposureInvariantKept : Prop := ∀ s t : State, ExposureInv s → step s = .next t → ExposureInv t

/-- The tile table, the sector lists and the queues of CLR keep their bounds. -/
def Statement.SlotInvariantKept : Prop := ∀ s t : State, TableInv s → step s = .next t → TableInv t

/-- The tile area stays in canonical form. -/
def Statement.TileAreaInvariantKept : Prop := ∀ s t : State, TileAreaInv s → step s = .next t → TileAreaInv t

/-- The tile table, the sector lists, the queues and the tile area of CLR keep their form. -/
def Obligations.TableInvariantKept : Prop :=
  Statement.SlotInvariantKept ∧ Statement.TileAreaInvariantKept

/-- The pending count of every committed line is the number of its points that are PENDING, but for those that the back-fill
step in progress on it has already taken out, with what keeps it so. -/
def Obligations.PendingCountKept : Prop := ∀ s t : State, LineColourInv s → step s = .next t → LineColourInv t

/-- Every counter stays at or below 4,294,967,295. -/
def Obligations.CounterInvariantKept : Prop := ∀ s t : State, CounterInv s → step s = .next t → CounterInv t

/-- Every attention controller's sets and rank order stay legal. -/
def Statement.AttentionInvariantKept : Prop := ∀ s t : State, AttentionInv s → step s = .next t → AttentionInv t

/-- A port whose link is DOWN stays clean, and a read-check table stays within 64 entries. -/
def Statement.PortInvariantKept : Prop :=
  ∀ s t : State, (DownPortInv s ∧ CheckTableInv s) → step s = .next t → (DownPortInv t ∧ CheckTableInv t)

/-- The attention controllers, the ports whose link is DOWN and the read-check tables keep their form. -/
def Obligations.ClientInvariantKept : Prop :=
  Statement.AttentionInvariantKept ∧ Statement.PortInvariantKept

/-- While the part is powered, roles do not change, and the line number counter and the exposure id counter are never set
back. -/
def Obligations.NumbersAndRolesStay : Prop :=
  ∀ s t : State, (∀ straps rest, s.pending ≠ .powerOn straps :: rest) → step s = .next t →
    (∀ p, (t.port p).role = (s.port p).role) ∧ s.lnb.lineCounter ≤ t.lnb.lineCounter ∧
    s.exs.idCounter ≤ t.exs.idCounter
end

