-- ==== Sys2Proof/Laws/State.lean ====
section
/-! SUPPORT. What each update of State leaves alone, one lemma per field and update, and what it sets. -/

namespace Sys2Proof.Machine

section FieldsLeftAlone

variable (s : State)

@[simp] theorem State.modPort_tb (p : PortId) (f : Port → Port) : (s.modPort p f).tb = s.tb := rfl
@[simp] theorem State.modPort_ang (p : PortId) (f : Port → Port) : (s.modPort p f).ang = s.ang := rfl
@[simp] theorem State.modPort_eca (p : PortId) (f : Port → Port) : (s.modPort p f).eca = s.eca := rfl
@[simp] theorem State.modPort_scn (p : PortId) (f : Port → Port) : (s.modPort p f).scn = s.scn := rfl
@[simp] theorem State.modPort_lnb (p : PortId) (f : Port → Port) : (s.modPort p f).lnb = s.lnb := rfl
@[simp] theorem State.modPort_rng (p : PortId) (f : Port → Port) : (s.modPort p f).rng = s.rng := rfl
@[simp] theorem State.modPort_exs (p : PortId) (f : Port → Port) : (s.modPort p f).exs = s.exs := rfl
@[simp] theorem State.modPort_clr (p : PortId) (f : Port → Port) : (s.modPort p f).clr = s.clr := rfl
@[simp] theorem State.modPort_str (p : PortId) (f : Port → Port) : (s.modPort p f).str = s.str := rfl
@[simp] theorem State.modPort_strCounters (p : PortId) (f : Port → Port) : (s.modPort p f).strCounters = s.strCounters := rfl
@[simp] theorem State.modPort_atn (p : PortId) (f : Port → Port) : (s.modPort p f).atn = s.atn := rfl
@[simp] theorem State.modPort_pending (p : PortId) (f : Port → Port) : (s.modPort p f).pending = s.pending := rfl

@[simp] theorem State.modStr_tb (p : PortId) (f : Stream → Stream) : (s.modStr p f).tb = s.tb := rfl
@[simp] theorem State.modStr_ang (p : PortId) (f : Stream → Stream) : (s.modStr p f).ang = s.ang := rfl
@[simp] theorem State.modStr_eca (p : PortId) (f : Stream → Stream) : (s.modStr p f).eca = s.eca := rfl
@[simp] theorem State.modStr_scn (p : PortId) (f : Stream → Stream) : (s.modStr p f).scn = s.scn := rfl
@[simp] theorem State.modStr_lnb (p : PortId) (f : Stream → Stream) : (s.modStr p f).lnb = s.lnb := rfl
@[simp] theorem State.modStr_rng (p : PortId) (f : Stream → Stream) : (s.modStr p f).rng = s.rng := rfl
@[simp] theorem State.modStr_exs (p : PortId) (f : Stream → Stream) : (s.modStr p f).exs = s.exs := rfl
@[simp] theorem State.modStr_clr (p : PortId) (f : Stream → Stream) : (s.modStr p f).clr = s.clr := rfl
@[simp] theorem State.modStr_strCounters (p : PortId) (f : Stream → Stream) : (s.modStr p f).strCounters = s.strCounters := rfl
@[simp] theorem State.modStr_prt (p : PortId) (f : Stream → Stream) : (s.modStr p f).prt = s.prt := rfl
@[simp] theorem State.modStr_atn (p : PortId) (f : Stream → Stream) : (s.modStr p f).atn = s.atn := rfl
@[simp] theorem State.modStr_pending (p : PortId) (f : Stream → Stream) : (s.modStr p f).pending = s.pending := rfl

@[simp] theorem State.modAtn_tb (p : PortId) (f : Atn → Atn) : (s.modAtn p f).tb = s.tb := rfl
@[simp] theorem State.modAtn_ang (p : PortId) (f : Atn → Atn) : (s.modAtn p f).ang = s.ang := rfl
@[simp] theorem State.modAtn_eca (p : PortId) (f : Atn → Atn) : (s.modAtn p f).eca = s.eca := rfl
@[simp] theorem State.modAtn_scn (p : PortId) (f : Atn → Atn) : (s.modAtn p f).scn = s.scn := rfl
@[simp] theorem State.modAtn_lnb (p : PortId) (f : Atn → Atn) : (s.modAtn p f).lnb = s.lnb := rfl
@[simp] theorem State.modAtn_rng (p : PortId) (f : Atn → Atn) : (s.modAtn p f).rng = s.rng := rfl
@[simp] theorem State.modAtn_exs (p : PortId) (f : Atn → Atn) : (s.modAtn p f).exs = s.exs := rfl
@[simp] theorem State.modAtn_clr (p : PortId) (f : Atn → Atn) : (s.modAtn p f).clr = s.clr := rfl
@[simp] theorem State.modAtn_str (p : PortId) (f : Atn → Atn) : (s.modAtn p f).str = s.str := rfl
@[simp] theorem State.modAtn_strCounters (p : PortId) (f : Atn → Atn) : (s.modAtn p f).strCounters = s.strCounters := rfl
@[simp] theorem State.modAtn_prt (p : PortId) (f : Atn → Atn) : (s.modAtn p f).prt = s.prt := rfl
@[simp] theorem State.modAtn_pending (p : PortId) (f : Atn → Atn) : (s.modAtn p f).pending = s.pending := rfl

@[simp] theorem State.raiseOn_tb (p : PortId) (e : EventPos) : (s.raiseOn p e).tb = s.tb := rfl
@[simp] theorem State.raiseOn_ang (p : PortId) (e : EventPos) : (s.raiseOn p e).ang = s.ang := rfl
@[simp] theorem State.raiseOn_eca (p : PortId) (e : EventPos) : (s.raiseOn p e).eca = s.eca := rfl
@[simp] theorem State.raiseOn_scn (p : PortId) (e : EventPos) : (s.raiseOn p e).scn = s.scn := rfl
@[simp] theorem State.raiseOn_lnb (p : PortId) (e : EventPos) : (s.raiseOn p e).lnb = s.lnb := rfl
@[simp] theorem State.raiseOn_rng (p : PortId) (e : EventPos) : (s.raiseOn p e).rng = s.rng := rfl
@[simp] theorem State.raiseOn_exs (p : PortId) (e : EventPos) : (s.raiseOn p e).exs = s.exs := rfl
@[simp] theorem State.raiseOn_clr (p : PortId) (e : EventPos) : (s.raiseOn p e).clr = s.clr := rfl
@[simp] theorem State.raiseOn_str (p : PortId) (e : EventPos) : (s.raiseOn p e).str = s.str := rfl
@[simp] theorem State.raiseOn_strCounters (p : PortId) (e : EventPos) : (s.raiseOn p e).strCounters = s.strCounters := rfl
@[simp] theorem State.raiseOn_prt (p : PortId) (e : EventPos) : (s.raiseOn p e).prt = s.prt := rfl
@[simp] theorem State.raiseOn_pending (p : PortId) (e : EventPos) : (s.raiseOn p e).pending = s.pending := rfl

@[simp] theorem State.raiseAll_tb (e : EventPos) : (s.raiseAll e).tb = s.tb := rfl
@[simp] theorem State.raiseAll_ang (e : EventPos) : (s.raiseAll e).ang = s.ang := rfl
@[simp] theorem State.raiseAll_eca (e : EventPos) : (s.raiseAll e).eca = s.eca := rfl
@[simp] theorem State.raiseAll_scn (e : EventPos) : (s.raiseAll e).scn = s.scn := rfl
@[simp] theorem State.raiseAll_lnb (e : EventPos) : (s.raiseAll e).lnb = s.lnb := rfl
@[simp] theorem State.raiseAll_rng (e : EventPos) : (s.raiseAll e).rng = s.rng := rfl
@[simp] theorem State.raiseAll_exs (e : EventPos) : (s.raiseAll e).exs = s.exs := rfl
@[simp] theorem State.raiseAll_clr (e : EventPos) : (s.raiseAll e).clr = s.clr := rfl
@[simp] theorem State.raiseAll_str (e : EventPos) : (s.raiseAll e).str = s.str := rfl
@[simp] theorem State.raiseAll_strCounters (e : EventPos) : (s.raiseAll e).strCounters = s.strCounters := rfl
@[simp] theorem State.raiseAll_prt (e : EventPos) : (s.raiseAll e).prt = s.prt := rfl
@[simp] theorem State.raiseAll_pending (e : EventPos) : (s.raiseAll e).pending = s.pending := rfl

@[simp] theorem State.clearSense_tb (p : PortId) : (s.clearSense p).tb = s.tb := rfl
@[simp] theorem State.clearSense_ang (p : PortId) : (s.clearSense p).ang = s.ang := rfl
@[simp] theorem State.clearSense_eca (p : PortId) : (s.clearSense p).eca = s.eca := rfl
@[simp] theorem State.clearSense_scn (p : PortId) : (s.clearSense p).scn = s.scn := rfl
@[simp] theorem State.clearSense_lnb (p : PortId) : (s.clearSense p).lnb = s.lnb := rfl
@[simp] theorem State.clearSense_rng (p : PortId) : (s.clearSense p).rng = s.rng := rfl
@[simp] theorem State.clearSense_exs (p : PortId) : (s.clearSense p).exs = s.exs := rfl
@[simp] theorem State.clearSense_clr (p : PortId) : (s.clearSense p).clr = s.clr := rfl
@[simp] theorem State.clearSense_str (p : PortId) : (s.clearSense p).str = s.str := rfl
@[simp] theorem State.clearSense_strCounters (p : PortId) : (s.clearSense p).strCounters = s.strCounters := rfl
@[simp] theorem State.clearSense_atn (p : PortId) : (s.clearSense p).atn = s.atn := rfl
@[simp] theorem State.clearSense_pending (p : PortId) : (s.clearSense p).pending = s.pending := rfl

@[simp] theorem State.answer_tb (p : PortId) (tag : Tag) (st : Status) : (s.answer p tag st).tb = s.tb := rfl
@[simp] theorem State.answer_ang (p : PortId) (tag : Tag) (st : Status) : (s.answer p tag st).ang = s.ang := rfl
@[simp] theorem State.answer_eca (p : PortId) (tag : Tag) (st : Status) : (s.answer p tag st).eca = s.eca := rfl
@[simp] theorem State.answer_scn (p : PortId) (tag : Tag) (st : Status) : (s.answer p tag st).scn = s.scn := rfl
@[simp] theorem State.answer_lnb (p : PortId) (tag : Tag) (st : Status) : (s.answer p tag st).lnb = s.lnb := rfl
@[simp] theorem State.answer_rng (p : PortId) (tag : Tag) (st : Status) : (s.answer p tag st).rng = s.rng := rfl
@[simp] theorem State.answer_exs (p : PortId) (tag : Tag) (st : Status) : (s.answer p tag st).exs = s.exs := rfl
@[simp] theorem State.answer_clr (p : PortId) (tag : Tag) (st : Status) : (s.answer p tag st).clr = s.clr := rfl
@[simp] theorem State.answer_str (p : PortId) (tag : Tag) (st : Status) : (s.answer p tag st).str = s.str := rfl
@[simp] theorem State.answer_strCounters (p : PortId) (tag : Tag) (st : Status) : (s.answer p tag st).strCounters = s.strCounters := rfl
@[simp] theorem State.answer_atn (p : PortId) (tag : Tag) (st : Status) : (s.answer p tag st).atn = s.atn := rfl
@[simp] theorem State.answer_pending (p : PortId) (tag : Tag) (st : Status) : (s.answer p tag st).pending = s.pending := rfl

@[simp] theorem State.refuse_tb (p : PortId) (tag : Tag) (c : SenseClass) (code : Nat) (info : Option Nat) : (s.refuse p tag c code info).tb = s.tb := rfl
@[simp] theorem State.refuse_ang (p : PortId) (tag : Tag) (c : SenseClass) (code : Nat) (info : Option Nat) : (s.refuse p tag c code info).ang = s.ang := rfl
@[simp] theorem State.refuse_eca (p : PortId) (tag : Tag) (c : SenseClass) (code : Nat) (info : Option Nat) : (s.refuse p tag c code info).eca = s.eca := rfl
@[simp] theorem State.refuse_scn (p : PortId) (tag : Tag) (c : SenseClass) (code : Nat) (info : Option Nat) : (s.refuse p tag c code info).scn = s.scn := rfl
@[simp] theorem State.refuse_lnb (p : PortId) (tag : Tag) (c : SenseClass) (code : Nat) (info : Option Nat) : (s.refuse p tag c code info).lnb = s.lnb := rfl
@[simp] theorem State.refuse_rng (p : PortId) (tag : Tag) (c : SenseClass) (code : Nat) (info : Option Nat) : (s.refuse p tag c code info).rng = s.rng := rfl
@[simp] theorem State.refuse_exs (p : PortId) (tag : Tag) (c : SenseClass) (code : Nat) (info : Option Nat) : (s.refuse p tag c code info).exs = s.exs := rfl
@[simp] theorem State.refuse_clr (p : PortId) (tag : Tag) (c : SenseClass) (code : Nat) (info : Option Nat) : (s.refuse p tag c code info).clr = s.clr := rfl
@[simp] theorem State.refuse_str (p : PortId) (tag : Tag) (c : SenseClass) (code : Nat) (info : Option Nat) : (s.refuse p tag c code info).str = s.str := rfl
@[simp] theorem State.refuse_strCounters (p : PortId) (tag : Tag) (c : SenseClass) (code : Nat) (info : Option Nat) : (s.refuse p tag c code info).strCounters = s.strCounters := rfl
@[simp] theorem State.refuse_atn (p : PortId) (tag : Tag) (c : SenseClass) (code : Nat) (info : Option Nat) : (s.refuse p tag c code info).atn = s.atn := rfl
@[simp] theorem State.refuse_pending (p : PortId) (tag : Tag) (c : SenseClass) (code : Nat) (info : Option Nat) : (s.refuse p tag c code info).pending = s.pending := rfl

@[simp] theorem State.accept_tb (p : PortId) (tag : Tag) : (s.accept p tag).tb = s.tb := rfl
@[simp] theorem State.accept_ang (p : PortId) (tag : Tag) : (s.accept p tag).ang = s.ang := rfl
@[simp] theorem State.accept_eca (p : PortId) (tag : Tag) : (s.accept p tag).eca = s.eca := rfl
@[simp] theorem State.accept_scn (p : PortId) (tag : Tag) : (s.accept p tag).scn = s.scn := rfl
@[simp] theorem State.accept_lnb (p : PortId) (tag : Tag) : (s.accept p tag).lnb = s.lnb := rfl
@[simp] theorem State.accept_rng (p : PortId) (tag : Tag) : (s.accept p tag).rng = s.rng := rfl
@[simp] theorem State.accept_exs (p : PortId) (tag : Tag) : (s.accept p tag).exs = s.exs := rfl
@[simp] theorem State.accept_clr (p : PortId) (tag : Tag) : (s.accept p tag).clr = s.clr := rfl
@[simp] theorem State.accept_str (p : PortId) (tag : Tag) : (s.accept p tag).str = s.str := rfl
@[simp] theorem State.accept_strCounters (p : PortId) (tag : Tag) : (s.accept p tag).strCounters = s.strCounters := rfl
@[simp] theorem State.accept_atn (p : PortId) (tag : Tag) : (s.accept p tag).atn = s.atn := rfl
@[simp] theorem State.accept_pending (p : PortId) (tag : Tag) : (s.accept p tag).pending = s.pending := rfl

@[simp] theorem State.hold_tb (p : PortId) (tag : Tag) (j : Job) : (s.hold p tag j).tb = s.tb := rfl
@[simp] theorem State.hold_ang (p : PortId) (tag : Tag) (j : Job) : (s.hold p tag j).ang = s.ang := rfl
@[simp] theorem State.hold_eca (p : PortId) (tag : Tag) (j : Job) : (s.hold p tag j).eca = s.eca := rfl
@[simp] theorem State.hold_scn (p : PortId) (tag : Tag) (j : Job) : (s.hold p tag j).scn = s.scn := rfl
@[simp] theorem State.hold_lnb (p : PortId) (tag : Tag) (j : Job) : (s.hold p tag j).lnb = s.lnb := rfl
@[simp] theorem State.hold_rng (p : PortId) (tag : Tag) (j : Job) : (s.hold p tag j).rng = s.rng := rfl
@[simp] theorem State.hold_exs (p : PortId) (tag : Tag) (j : Job) : (s.hold p tag j).exs = s.exs := rfl
@[simp] theorem State.hold_clr (p : PortId) (tag : Tag) (j : Job) : (s.hold p tag j).clr = s.clr := rfl
@[simp] theorem State.hold_str (p : PortId) (tag : Tag) (j : Job) : (s.hold p tag j).str = s.str := rfl
@[simp] theorem State.hold_strCounters (p : PortId) (tag : Tag) (j : Job) : (s.hold p tag j).strCounters = s.strCounters := rfl
@[simp] theorem State.hold_atn (p : PortId) (tag : Tag) (j : Job) : (s.hold p tag j).atn = s.atn := rfl
@[simp] theorem State.hold_pending (p : PortId) (tag : Tag) (j : Job) : (s.hold p tag j).pending = s.pending := rfl

@[simp] theorem State.finish_tb (p : PortId) (tag : Tag) (st : Status) : (s.finish p tag st).tb = s.tb := rfl
@[simp] theorem State.finish_ang (p : PortId) (tag : Tag) (st : Status) : (s.finish p tag st).ang = s.ang := rfl
@[simp] theorem State.finish_eca (p : PortId) (tag : Tag) (st : Status) : (s.finish p tag st).eca = s.eca := rfl
@[simp] theorem State.finish_scn (p : PortId) (tag : Tag) (st : Status) : (s.finish p tag st).scn = s.scn := rfl
@[simp] theorem State.finish_lnb (p : PortId) (tag : Tag) (st : Status) : (s.finish p tag st).lnb = s.lnb := rfl
@[simp] theorem State.finish_rng (p : PortId) (tag : Tag) (st : Status) : (s.finish p tag st).rng = s.rng := rfl
@[simp] theorem State.finish_exs (p : PortId) (tag : Tag) (st : Status) : (s.finish p tag st).exs = s.exs := rfl
@[simp] theorem State.finish_clr (p : PortId) (tag : Tag) (st : Status) : (s.finish p tag st).clr = s.clr := rfl
@[simp] theorem State.finish_str (p : PortId) (tag : Tag) (st : Status) : (s.finish p tag st).str = s.str := rfl
@[simp] theorem State.finish_strCounters (p : PortId) (tag : Tag) (st : Status) : (s.finish p tag st).strCounters = s.strCounters := rfl
@[simp] theorem State.finish_atn (p : PortId) (tag : Tag) (st : Status) : (s.finish p tag st).atn = s.atn := rfl
@[simp] theorem State.finish_pending (p : PortId) (tag : Tag) (st : Status) : (s.finish p tag st).pending = s.pending := rfl

@[simp] theorem State.finishCheck_tb (p : PortId) (tag : Tag) (c : SenseClass) (code : Nat) (info : Option Nat) : (s.finishCheck p tag c code info).tb = s.tb := rfl
@[simp] theorem State.finishCheck_ang (p : PortId) (tag : Tag) (c : SenseClass) (code : Nat) (info : Option Nat) : (s.finishCheck p tag c code info).ang = s.ang := rfl
@[simp] theorem State.finishCheck_eca (p : PortId) (tag : Tag) (c : SenseClass) (code : Nat) (info : Option Nat) : (s.finishCheck p tag c code info).eca = s.eca := rfl
@[simp] theorem State.finishCheck_scn (p : PortId) (tag : Tag) (c : SenseClass) (code : Nat) (info : Option Nat) : (s.finishCheck p tag c code info).scn = s.scn := rfl
@[simp] theorem State.finishCheck_lnb (p : PortId) (tag : Tag) (c : SenseClass) (code : Nat) (info : Option Nat) : (s.finishCheck p tag c code info).lnb = s.lnb := rfl
@[simp] theorem State.finishCheck_rng (p : PortId) (tag : Tag) (c : SenseClass) (code : Nat) (info : Option Nat) : (s.finishCheck p tag c code info).rng = s.rng := rfl
@[simp] theorem State.finishCheck_exs (p : PortId) (tag : Tag) (c : SenseClass) (code : Nat) (info : Option Nat) : (s.finishCheck p tag c code info).exs = s.exs := rfl
@[simp] theorem State.finishCheck_clr (p : PortId) (tag : Tag) (c : SenseClass) (code : Nat) (info : Option Nat) : (s.finishCheck p tag c code info).clr = s.clr := rfl
@[simp] theorem State.finishCheck_str (p : PortId) (tag : Tag) (c : SenseClass) (code : Nat) (info : Option Nat) : (s.finishCheck p tag c code info).str = s.str := rfl
@[simp] theorem State.finishCheck_strCounters (p : PortId) (tag : Tag) (c : SenseClass) (code : Nat) (info : Option Nat) : (s.finishCheck p tag c code info).strCounters = s.strCounters := rfl
@[simp] theorem State.finishCheck_atn (p : PortId) (tag : Tag) (c : SenseClass) (code : Nat) (info : Option Nat) : (s.finishCheck p tag c code info).atn = s.atn := rfl
@[simp] theorem State.finishCheck_pending (p : PortId) (tag : Tag) (c : SenseClass) (code : Nat) (info : Option Nat) : (s.finishCheck p tag c code info).pending = s.pending := rfl

@[simp] theorem State.setAng_tb (g : Ang) : (s.setAng g).tb = s.tb := rfl
@[simp] theorem State.setAng_eca (g : Ang) : (s.setAng g).eca = s.eca := rfl
@[simp] theorem State.setAng_scn (g : Ang) : (s.setAng g).scn = s.scn := rfl
@[simp] theorem State.setAng_lnb (g : Ang) : (s.setAng g).lnb = s.lnb := rfl
@[simp] theorem State.setAng_rng (g : Ang) : (s.setAng g).rng = s.rng := rfl
@[simp] theorem State.setAng_exs (g : Ang) : (s.setAng g).exs = s.exs := rfl
@[simp] theorem State.setAng_clr (g : Ang) : (s.setAng g).clr = s.clr := rfl
@[simp] theorem State.setAng_str (g : Ang) : (s.setAng g).str = s.str := rfl
@[simp] theorem State.setAng_strCounters (g : Ang) : (s.setAng g).strCounters = s.strCounters := rfl
@[simp] theorem State.setAng_prt (g : Ang) : (s.setAng g).prt = s.prt := rfl
@[simp] theorem State.setAng_atn (g : Ang) : (s.setAng g).atn = s.atn := rfl
@[simp] theorem State.setAng_pending (g : Ang) : (s.setAng g).pending = s.pending := rfl

@[simp] theorem State.setInBand_tb (n : Nat) : (s.setInBand n).tb = s.tb := rfl
@[simp] theorem State.setInBand_ang (n : Nat) : (s.setInBand n).ang = s.ang := rfl
@[simp] theorem State.setInBand_eca (n : Nat) : (s.setInBand n).eca = s.eca := rfl
@[simp] theorem State.setInBand_lnb (n : Nat) : (s.setInBand n).lnb = s.lnb := rfl
@[simp] theorem State.setInBand_rng (n : Nat) : (s.setInBand n).rng = s.rng := rfl
@[simp] theorem State.setInBand_exs (n : Nat) : (s.setInBand n).exs = s.exs := rfl
@[simp] theorem State.setInBand_clr (n : Nat) : (s.setInBand n).clr = s.clr := rfl
@[simp] theorem State.setInBand_str (n : Nat) : (s.setInBand n).str = s.str := rfl
@[simp] theorem State.setInBand_strCounters (n : Nat) : (s.setInBand n).strCounters = s.strCounters := rfl
@[simp] theorem State.setInBand_prt (n : Nat) : (s.setInBand n).prt = s.prt := rfl
@[simp] theorem State.setInBand_atn (n : Nat) : (s.setInBand n).atn = s.atn := rfl
@[simp] theorem State.setInBand_pending (n : Nat) : (s.setInBand n).pending = s.pending := rfl

@[simp] theorem State.setRead_tb (p : PortId) (r : Option LinesRead) : (s.setRead p r).tb = s.tb := rfl
@[simp] theorem State.setRead_ang (p : PortId) (r : Option LinesRead) : (s.setRead p r).ang = s.ang := rfl
@[simp] theorem State.setRead_eca (p : PortId) (r : Option LinesRead) : (s.setRead p r).eca = s.eca := rfl
@[simp] theorem State.setRead_scn (p : PortId) (r : Option LinesRead) : (s.setRead p r).scn = s.scn := rfl
@[simp] theorem State.setRead_lnb (p : PortId) (r : Option LinesRead) : (s.setRead p r).lnb = s.lnb := rfl
@[simp] theorem State.setRead_rng (p : PortId) (r : Option LinesRead) : (s.setRead p r).rng = s.rng := rfl
@[simp] theorem State.setRead_exs (p : PortId) (r : Option LinesRead) : (s.setRead p r).exs = s.exs := rfl
@[simp] theorem State.setRead_clr (p : PortId) (r : Option LinesRead) : (s.setRead p r).clr = s.clr := rfl
@[simp] theorem State.setRead_strCounters (p : PortId) (r : Option LinesRead) : (s.setRead p r).strCounters = s.strCounters := rfl
@[simp] theorem State.setRead_prt (p : PortId) (r : Option LinesRead) : (s.setRead p r).prt = s.prt := rfl
@[simp] theorem State.setRead_atn (p : PortId) (r : Option LinesRead) : (s.setRead p r).atn = s.atn := rfl
@[simp] theorem State.setRead_pending (p : PortId) (r : Option LinesRead) : (s.setRead p r).pending = s.pending := rfl

@[simp] theorem State.setOpenLine_tb (h : LineHeader) : (s.setOpenLine h).tb = s.tb := rfl
@[simp] theorem State.setOpenLine_ang (h : LineHeader) : (s.setOpenLine h).ang = s.ang := rfl
@[simp] theorem State.setOpenLine_eca (h : LineHeader) : (s.setOpenLine h).eca = s.eca := rfl
@[simp] theorem State.setOpenLine_scn (h : LineHeader) : (s.setOpenLine h).scn = s.scn := rfl
@[simp] theorem State.setOpenLine_rng (h : LineHeader) : (s.setOpenLine h).rng = s.rng := rfl
@[simp] theorem State.setOpenLine_exs (h : LineHeader) : (s.setOpenLine h).exs = s.exs := rfl
@[simp] theorem State.setOpenLine_clr (h : LineHeader) : (s.setOpenLine h).clr = s.clr := rfl
@[simp] theorem State.setOpenLine_str (h : LineHeader) : (s.setOpenLine h).str = s.str := rfl
@[simp] theorem State.setOpenLine_strCounters (h : LineHeader) : (s.setOpenLine h).strCounters = s.strCounters := rfl
@[simp] theorem State.setOpenLine_prt (h : LineHeader) : (s.setOpenLine h).prt = s.prt := rfl
@[simp] theorem State.setOpenLine_atn (h : LineHeader) : (s.setOpenLine h).atn = s.atn := rfl
@[simp] theorem State.setOpenLine_pending (h : LineHeader) : (s.setOpenLine h).pending = s.pending := rfl

@[simp] theorem State.withFifo_tb (f : List FifoItem) : (s.withFifo f).tb = s.tb := rfl
@[simp] theorem State.withFifo_ang (f : List FifoItem) : (s.withFifo f).ang = s.ang := rfl
@[simp] theorem State.withFifo_eca (f : List FifoItem) : (s.withFifo f).eca = s.eca := rfl
@[simp] theorem State.withFifo_scn (f : List FifoItem) : (s.withFifo f).scn = s.scn := rfl
@[simp] theorem State.withFifo_exs (f : List FifoItem) : (s.withFifo f).exs = s.exs := rfl
@[simp] theorem State.withFifo_clr (f : List FifoItem) : (s.withFifo f).clr = s.clr := rfl
@[simp] theorem State.withFifo_str (f : List FifoItem) : (s.withFifo f).str = s.str := rfl
@[simp] theorem State.withFifo_strCounters (f : List FifoItem) : (s.withFifo f).strCounters = s.strCounters := rfl
@[simp] theorem State.withFifo_prt (f : List FifoItem) : (s.withFifo f).prt = s.prt := rfl
@[simp] theorem State.withFifo_atn (f : List FifoItem) : (s.withFifo f).atn = s.atn := rfl
@[simp] theorem State.withFifo_pending (f : List FifoItem) : (s.withFifo f).pending = s.pending := rfl

@[simp] theorem State.withdraw_tb (o : TransferOwner) : (s.withdraw o).tb = s.tb := rfl
@[simp] theorem State.withdraw_ang (o : TransferOwner) : (s.withdraw o).ang = s.ang := rfl
@[simp] theorem State.withdraw_eca (o : TransferOwner) : (s.withdraw o).eca = s.eca := rfl
@[simp] theorem State.withdraw_scn (o : TransferOwner) : (s.withdraw o).scn = s.scn := rfl
@[simp] theorem State.withdraw_lnb (o : TransferOwner) : (s.withdraw o).lnb = s.lnb := rfl
@[simp] theorem State.withdraw_exs (o : TransferOwner) : (s.withdraw o).exs = s.exs := rfl
@[simp] theorem State.withdraw_clr (o : TransferOwner) : (s.withdraw o).clr = s.clr := rfl
@[simp] theorem State.withdraw_str (o : TransferOwner) : (s.withdraw o).str = s.str := rfl
@[simp] theorem State.withdraw_strCounters (o : TransferOwner) : (s.withdraw o).strCounters = s.strCounters := rfl
@[simp] theorem State.withdraw_prt (o : TransferOwner) : (s.withdraw o).prt = s.prt := rfl
@[simp] theorem State.withdraw_atn (o : TransferOwner) : (s.withdraw o).atn = s.atn := rfl
@[simp] theorem State.withdraw_pending (o : TransferOwner) : (s.withdraw o).pending = s.pending := rfl

@[simp] theorem State.startTransfer_tb (o : TransferOwner) : (s.startTransfer o).tb = s.tb := rfl
@[simp] theorem State.startTransfer_ang (o : TransferOwner) : (s.startTransfer o).ang = s.ang := rfl
@[simp] theorem State.startTransfer_eca (o : TransferOwner) : (s.startTransfer o).eca = s.eca := rfl
@[simp] theorem State.startTransfer_scn (o : TransferOwner) : (s.startTransfer o).scn = s.scn := rfl
@[simp] theorem State.startTransfer_lnb (o : TransferOwner) : (s.startTransfer o).lnb = s.lnb := rfl
@[simp] theorem State.startTransfer_exs (o : TransferOwner) : (s.startTransfer o).exs = s.exs := rfl
@[simp] theorem State.startTransfer_clr (o : TransferOwner) : (s.startTransfer o).clr = s.clr := rfl
@[simp] theorem State.startTransfer_str (o : TransferOwner) : (s.startTransfer o).str = s.str := rfl
@[simp] theorem State.startTransfer_strCounters (o : TransferOwner) : (s.startTransfer o).strCounters = s.strCounters := rfl
@[simp] theorem State.startTransfer_prt (o : TransferOwner) : (s.startTransfer o).prt = s.prt := rfl
@[simp] theorem State.startTransfer_atn (o : TransferOwner) : (s.startTransfer o).atn = s.atn := rfl
@[simp] theorem State.startTransfer_pending (o : TransferOwner) : (s.startTransfer o).pending = s.pending := rfl

@[simp] theorem State.clearSpent_tb : (s.clearSpent).tb = s.tb := rfl
@[simp] theorem State.clearSpent_ang : (s.clearSpent).ang = s.ang := rfl
@[simp] theorem State.clearSpent_eca : (s.clearSpent).eca = s.eca := rfl
@[simp] theorem State.clearSpent_scn : (s.clearSpent).scn = s.scn := rfl
@[simp] theorem State.clearSpent_rng : (s.clearSpent).rng = s.rng := rfl
@[simp] theorem State.clearSpent_exs : (s.clearSpent).exs = s.exs := rfl
@[simp] theorem State.clearSpent_clr : (s.clearSpent).clr = s.clr := rfl
@[simp] theorem State.clearSpent_str : (s.clearSpent).str = s.str := rfl
@[simp] theorem State.clearSpent_strCounters : (s.clearSpent).strCounters = s.strCounters := rfl
@[simp] theorem State.clearSpent_prt : (s.clearSpent).prt = s.prt := rfl
@[simp] theorem State.clearSpent_atn : (s.clearSpent).atn = s.atn := rfl
@[simp] theorem State.clearSpent_pending : (s.clearSpent).pending = s.pending := rfl

@[simp] theorem State.emptyHistory_tb : (s.emptyHistory).tb = s.tb := rfl
@[simp] theorem State.emptyHistory_ang : (s.emptyHistory).ang = s.ang := rfl
@[simp] theorem State.emptyHistory_scn : (s.emptyHistory).scn = s.scn := rfl
@[simp] theorem State.emptyHistory_lnb : (s.emptyHistory).lnb = s.lnb := rfl
@[simp] theorem State.emptyHistory_rng : (s.emptyHistory).rng = s.rng := rfl
@[simp] theorem State.emptyHistory_exs : (s.emptyHistory).exs = s.exs := rfl
@[simp] theorem State.emptyHistory_clr : (s.emptyHistory).clr = s.clr := rfl
@[simp] theorem State.emptyHistory_str : (s.emptyHistory).str = s.str := rfl
@[simp] theorem State.emptyHistory_strCounters : (s.emptyHistory).strCounters = s.strCounters := rfl
@[simp] theorem State.emptyHistory_prt : (s.emptyHistory).prt = s.prt := rfl
@[simp] theorem State.emptyHistory_atn : (s.emptyHistory).atn = s.atn := rfl
@[simp] theorem State.emptyHistory_pending : (s.emptyHistory).pending = s.pending := rfl

end FieldsLeftAlone

section FieldsSet

variable (s : State)

@[simp] theorem State.modPort_prt (p : PortId) (f : Port → Port) : (s.modPort p f).prt = s.prt.modify p f := rfl
@[simp] theorem State.modStr_str (p : PortId) (f : Stream → Stream) : (s.modStr p f).str = s.str.modify p f := rfl
@[simp] theorem State.modAtn_atn (p : PortId) (f : Atn → Atn) : (s.modAtn p f).atn = s.atn.modify p f := rfl
@[simp] theorem State.setAng_ang (g : Ang) : (s.setAng g).ang = g := rfl
@[simp] theorem State.withFifo_fifo (f : List FifoItem) : (s.withFifo f).lnb.fifo = f := rfl

@[simp] theorem State.port_modPort_same (p : PortId) (f : Port → Port) : (s.modPort p f).port p = f (s.port p) := by
  simp [State.port]

theorem State.port_modPort_other {p q : PortId} (f : Port → Port) (h : q ≠ p) : (s.modPort p f).port q = s.port q := by
  simp [State.port, Quad.get_modify_other _ _ h]

@[simp] theorem State.stream_modStr_same (p : PortId) (f : Stream → Stream) :
    (s.modStr p f).stream p = f (s.stream p) := by
  simp [State.stream]

theorem State.stream_modStr_other {p q : PortId} (f : Stream → Stream) (h : q ≠ p) :
    (s.modStr p f).stream q = s.stream q := by
  simp [State.stream, Quad.get_modify_other _ _ h]

@[simp] theorem State.atn_raiseAll (e : EventPos) (p : PortId) :
    (s.raiseAll e).atn.get p = (s.atn.get p).raise e (s.port p).link := by
  simp [State.raiseAll]

@[simp] theorem State.atn_raiseOn_same (e : EventPos) (p : PortId) :
    (s.raiseOn p e).atn.get p = (s.atn.get p).raise e (s.port p).link := by
  simp [State.raiseOn]

theorem State.atn_raiseOn_other (e : EventPos) {p q : PortId} (h : q ≠ p) :
    (s.raiseOn p e).atn.get q = s.atn.get q := by
  simp [State.raiseOn, Quad.get_modify_other _ _ h]

end FieldsSet

end Sys2Proof.Machine
end

