-- ==== Sys2Proof/Laws/Client.lean ====
section
/-! SUPPORT. What taking a client command can do, in the words of Safety: the four outcomes of R169's steps, and the
replies, refusals, holds and reads as one change of the command's port. -/

namespace Sys2Proof.Machine

/-! ### One change of a port -/

theorem Quad.set_set {α : Type} (q : Quad α) (i : Fin 4) (x y : α) : (q.set i x).set i y = q.set i y := by
  match i with
  | 0 => rfl
  | 1 => rfl
  | 2 => rfl
  | 3 => rfl

theorem Quad.set_get {α : Type} (q : Quad α) (i : Fin 4) : q.set i (q.get i) = q := by
  match i with
  | 0 => rfl
  | 1 => rfl
  | 2 => rfl
  | 3 => rfl

theorem Quad.ext_get {α : Type} {q r : Quad α} (h : ∀ i, q.get i = r.get i) : q = r := by
  obtain ⟨a, b, c, d⟩ := q
  obtain ⟨a', b', c', d'⟩ := r
  have h0 : a = a' := h 0
  have h1 : b = b' := h 1
  have h2 : c = c' := h 2
  have h3 : d = d' := h 3
  rw [h0, h1, h2, h3]

theorem State.modPort_eq_withPort (s : State) (p : PortId) (f : Port → Port) :
    s.modPort p f = s.withPort p (f (s.port p)) := rfl

@[simp] theorem State.port_withPort_same (s : State) (p : PortId) (q : Port) : (s.withPort p q).port p = q := by
  simp [State.withPort, State.port]

theorem State.port_withPort_other (s : State) {p r : PortId} (q : Port) (h : r ≠ p) :
    (s.withPort p q).port r = s.port r := by
  simp [State.withPort, State.port, Quad.get_set_other _ _ h]

@[simp] theorem State.withPort_withPort (s : State) (p : PortId) (q r : Port) :
    (s.withPort p q).withPort p r = s.withPort p r := by
  simp [State.withPort, Quad.set_set]

@[simp] theorem State.withPort_port (s : State) (p : PortId) : s.withPort p (s.port p) = s := by
  simp [State.withPort, State.port, Quad.set_get]

@[simp] theorem State.modPort_withPort (s : State) (p : PortId) (q : Port) (f : Port → Port) :
    (s.withPort p q).modPort p f = s.withPort p (f q) := by
  rw [State.modPort_eq_withPort, State.port_withPort_same, State.withPort_withPort]

theorem State.clearSense_eq (s : State) (p : PortId) :
    s.clearSense p = s.withPort p { s.port p with sense := Sys2Proof.Machine.clearSense } := rfl

/-! ### Frames handed on a port whose link is UP -/

theorem Port.hand_of_up {q : Port} (h : q.link = .up) (f : OutFrame) :
    q.hand f = { q with outgoing := q.outgoing ++ [f] } := by
  unfold Port.hand; rw [h]

theorem State.reply_taken {s : State} {p : PortId} (h : (s.port p).link = .up) (tag : Tag) (st : Status) :
    (s.clearSense p).answer p tag st = s.replied p tag st := by
  rw [State.clearSense_eq, State.answer, State.modPort_withPort, Port.answer, Port.hand_of_up (by exact h)]
  rfl

theorem State.refuse_taken {s : State} {p : PortId} (h : (s.port p).link = .up) (tag : Tag) (c : SenseClass)
    (info : Option Nat) : (s.clearSense p).refuse p tag c 0 info = s.refused p tag c info := by
  rw [State.clearSense_eq, State.refuse, State.modPort_withPort, Port.refuse, Port.hand_of_up (by exact h)]
  rfl

theorem State.hold_taken {s : State} {p : PortId} (tag : Tag) (j : Job) :
    (s.clearSense p).hold p tag j = s.held p tag j [] := by
  rw [State.clearSense_eq, State.hold, State.modPort_withPort, State.held, Port.sent, List.append_nil]

theorem State.accept_held {s : State} {p : PortId} (h : (s.port p).link = .up) (tag : Tag) (j : Job) :
    (s.held p tag j []).accept p tag = s.held p tag j [acceptedFrame tag] := by
  rw [State.held, State.accept, State.modPort_withPort, Port.hand_of_up (by exact h), State.held]
  simp [Port.sent, acceptedFrame]

theorem Port.idleTag_link (tag : Tag) (q : Port) : (q.idleTag tag).link = q.link := rfl

/-- An immediate read command hands its first payload or ends (R172). -/
theorem State.deliver_eq {s : State} {p : PortId} (h : (s.port p).link = .up) (tag : Tag) (code : Byte)
    (ps : List (List Byte)) : s.deliver p tag code ps = s.withPort p ((s.port p).reading tag code ps) := by
  match ps with
  | [] =>
    show s.withPort p (((s.port p).idleTag tag).answer tag .done) = _
    rw [Port.answer, Port.hand_of_up (by exact h)]
    rfl
  | [d] =>
    show (s.modPort p (Port.hand ⟨tag, .dataIn d, true⟩)).finish p tag .done = _
    rw [State.modPort_eq_withPort, Port.hand_of_up h, State.finish, State.modPort_withPort, Port.answer,
      Port.hand_of_up (by exact h)]
    simp [Port.reading, Port.idleTag, dataInFrame, replyFrame]
  | d :: d' :: rest =>
    show (s.modPort p (Port.hand ⟨tag, .dataIn d, false⟩)).hold p tag (.reading code (d' :: rest)) = _
    rw [State.modPort_eq_withPort, Port.hand_of_up h, State.hold, State.modPort_withPort]
    rfl

theorem State.read_taken {s : State} {p : PortId} (h : (s.port p).link = .up) (tag : Tag) (code : Byte)
    (ps : List (List Byte)) : (s.clearSense p).deliver p tag code ps = s.readOut p tag code ps := by
  rw [State.deliver_eq (by rw [State.clearSense_eq, State.port_withPort_same]; exact h), State.clearSense_eq,
    State.withPort_withPort, State.port_withPort_same]
  rfl

/-! ### Taking a command (R169) -/

/-- Past the tag and the role, the command's own rule is taken on the state with the sense record cleared. -/
theorem client_ready {s : State} {p : PortId} {tag : Tag} {allowed : Role → Bool} (h : s.ready p tag)
    (ha : allowed (s.port p).role = true) (body : State → State) :
    client p tag allowed body s = body (s.clearSense p) := by
  have hj : (s.clearSense p).job p tag = none := by
    rw [State.job, State.clearSense_eq, State.port_withPort_same]; exact h.2
  have hr : ((s.clearSense p).port p).role = (s.port p).role := by
    rw [State.clearSense_eq, State.port_withPort_same]
  unfold client
  rw [h.1]
  simp only [tagAndRole, hj, hr, ha]
  rfl

theorem client_role {s : State} {p : PortId} {tag : Tag} {allowed : Role → Bool} (h : s.ready p tag)
    (ha : allowed (s.port p).role = false) (body : State → State) :
    client p tag allowed body s = s.refused p tag .role none := by
  have hj : (s.clearSense p).job p tag = none := by
    rw [State.job, State.clearSense_eq, State.port_withPort_same]; exact h.2
  have hr : ((s.clearSense p).port p).role = (s.port p).role := by
    rw [State.clearSense_eq, State.port_withPort_same]
  unfold client
  rw [h.1]
  simp only [tagAndRole, hj, hr, ha]
  exact State.refuse_taken h.1 tag .role none

theorem client_busy {s : State} {p : PortId} {tag : Tag} (hl : (s.port p).link = .up)
    (ht : (s.port p).tags.get tag ≠ none) (allowed : Role → Bool) (body : State → State) :
    client p tag allowed body s = s.replied p tag .busy := by
  have hj : (s.clearSense p).job p tag ≠ none := by
    rw [State.job, State.clearSense_eq, State.port_withPort_same]; exact ht
  unfold client
  rw [hl]
  simp only [tagAndRole, Option.isSome_iff_ne_none.mpr hj]
  exact State.reply_taken hl tag .busy

theorem client_down {s : State} {p : PortId} (tag : Tag) (hl : (s.port p).link = .down) (allowed : Role → Bool)
    (body : State → State) : client p tag allowed body s = s := by
  unfold client; rw [hl]

theorem clientKeepSense_ready {s : State} {p : PortId} {tag : Tag} (h : s.ready p tag) (body : State → State) :
    clientKeepSense p tag body s = body s := by
  unfold clientKeepSense
  rw [h.1]
  simp only [tagAndRole, State.job, h.2]
  rfl

theorem clientKeepSense_busy {s : State} {p : PortId} {tag : Tag} (hl : (s.port p).link = .up)
    (ht : (s.port p).tags.get tag ≠ none) (body : State → State) :
    clientKeepSense p tag body s = s.answer p tag .busy := by
  unfold clientKeepSense
  rw [hl]
  simp only [tagAndRole, State.job, Option.isSome_iff_ne_none.mpr ht]
  rfl

theorem clientSkipTag_up {s : State} {p : PortId} (hl : (s.port p).link = .up) (body : State → State) :
    clientSkipTag p body s = body (s.clearSense p) := by
  unfold clientSkipTag; rw [hl]

/-! ### The scan state a command needs -/

theorem State.inIdle_idle {s : State} (h : s.scn.state = .idle) (p : PortId) (tag : Tag) (k : State → State) :
    s.inIdle p tag k = k s := by
  unfold State.inIdle; rw [h]

theorem State.inIdle_other {s : State} (h : s.scn.state ≠ .idle) (p : PortId) (tag : Tag) (k : State → State) :
    s.inIdle p tag k = s.refuse p tag .state 0 none := by
  unfold State.inIdle; split
  · exact absurd (by assumption) h
  all_goals rfl

theorem State.idleAtLastByte_idle {s : State} (h : s.scn.state = .idle) (p : PortId) (tag : Tag) (k : State → State) :
    s.idleAtLastByte p tag k = k s := by
  unfold State.idleAtLastByte; rw [h]

theorem State.idleAtLastByte_other {s : State} (h : s.scn.state ≠ .idle) (p : PortId) (tag : Tag)
    (k : State → State) : s.idleAtLastByte p tag k = s.finishCheck p tag .state 0 none := by
  unfold State.idleAtLastByte; split
  · exact absurd (by assumption) h
  all_goals rfl

/-- No command in flight on any port and tag satisfies `f`. -/
theorem State.anyJob_false {s : State} {f : Job → Bool} (h : ∀ p tag j, (s.port p).tags.get tag = some j → f j = false) :
    s.anyJob f = false := by
  have key : ∀ p : PortId, (s.port p).tags.toList.any (fun j => (j.map f).getD false) = false := by
    intro p
    have hx : ∀ tag : Tag, (((s.port p).tags.get tag).map f).getD false = false := by
      intro tag
      cases hj : (s.port p).tags.get tag with
      | none => rfl
      | some j => exact h p tag j hj
    simp only [Quad.toList, List.any_cons, List.any_nil, Bool.or_false]
    rw [show (s.port p).tags.p0 = (s.port p).tags.get 0 from rfl, show (s.port p).tags.p1 = (s.port p).tags.get 1 from rfl,
      show (s.port p).tags.p2 = (s.port p).tags.get 2 from rfl, show (s.port p).tags.p3 = (s.port p).tags.get 3 from rfl,
      hx 0, hx 1, hx 2, hx 3]
    rfl
  unfold State.anyJob
  simp only [Quad.toList, List.any_cons, List.any_nil, Bool.or_false]
  have h0 := key 0
  have h1 := key 1
  have h2 := key 2
  have h3 := key 3
  simp only [State.port, Quad.toList, List.any_cons, List.any_nil, Bool.or_false] at h0 h1 h2 h3
  rw [show s.prt.p0 = s.prt.get 0 from rfl, show s.prt.p1 = s.prt.get 1 from rfl,
    show s.prt.p2 = s.prt.get 2 from rfl, show s.prt.p3 = s.prt.get 3 from rfl, h0, h1, h2, h3]
  rfl

end Sys2Proof.Machine
end

