-- ==== Sys2Proof/Laws/Colour.lean ====
section
/-! SUPPORT. What one transfer of CLR can carry, and that the rounds of the colour engine's choice suffice. -/

namespace Sys2Proof.Machine

/-! ### Point records that fit in a transfer (R94) -/

theorem pointsFitting_le_length (traffic : Point → Nat) : ∀ (room : Nat) (ps : List Point),
    pointsFitting traffic room ps ≤ ps.length
  | _, [] => Nat.le_refl 0
  | room, p :: ps => by
    unfold pointsFitting
    split
    · exact Nat.succ_le_succ (pointsFitting_le_length traffic _ ps)
    · exact Nat.zero_le _

/-- The records that fit take no more than the room. -/
theorem traffic_take_pointsFitting (traffic : Point → Nat) : ∀ (room : Nat) (ps : List Point),
    ((ps.take (pointsFitting traffic room ps)).map traffic).sum ≤ room
  | room, [] => Nat.zero_le room
  | room, p :: ps => by
    unfold pointsFitting
    split
    · rename_i h
      have := traffic_take_pointsFitting traffic (room - traffic p) ps
      rw [List.take_succ_cons, List.map_cons, List.sum_cons]
      omega
    · exact Nat.zero_le room

/-- One record more does not fit. -/
theorem lt_traffic_take_succ (traffic : Point → Nat) : ∀ (room : Nat) (ps : List Point),
    pointsFitting traffic room ps < ps.length → room < ((ps.take (pointsFitting traffic room ps + 1)).map traffic).sum
  | _, [], h => absurd h (Nat.not_lt_zero _)
  | room, p :: ps, h => by
    unfold pointsFitting at h ⊢
    split at h
    · rename_i hp
      rw [if_pos hp, List.take_succ_cons, List.map_cons, List.sum_cons]
      have := lt_traffic_take_succ traffic (room - traffic p) ps (Nat.lt_of_succ_lt_succ h)
      omega
    · rename_i hp
      rw [if_neg hp, List.take_succ_cons, List.map_cons, List.sum_cons]
      omega

/-- Reading and writing back one record of a line takes at most 91 bytes, so a transfer has room for one. -/
theorem State.recordTraffic_le (s : State) (x : Pass) {p : Point} (h : p.echoes.length ≤ 4) : s.recordTraffic x p ≤ 91 := by
  have hp : p.size ≤ 44 := by unfold Point.size; omega
  unfold State.recordTraffic
  split
  · split <;> omega
  · omega

/-! ### The colour engine's choice (R136, R139) -/

/-- The rounds a choice takes at most: one for the work in hand, two for each queued task and for the sweep, and the last. -/
def Clr.rounds (c : Clr) : Nat :=
  (if c.work.isSome then 1 else 0) + (if c.sweepMark then 2 else 0) + 2 * c.backfillQueue.length + 1

theorem Clr.rounds_endWork_le (c : Clr) : c.endWork.rounds ≤ c.rounds := by
  unfold Clr.endWork
  split
  · exact Nat.le_refl _
  · split
    · simp [Clr.rounds]
    · exact Nat.le_refl _

theorem Clr.rounds_takeUp {c c' : Clr} (hw : c.work = none) (h : c.takeUp = some c') : c'.rounds < c.rounds := by
  unfold Clr.takeUp at h
  simp only at h
  split at h
  · rename_i hs
    cases h
    simp [Clr.rounds, hw, hs]
  · rename_i hs
    split at h
    · cases h
    · rename_i e rest hq
      cases h
      simp [Clr.rounds, hw, hs, hq]
      omega

/-- More rounds than a choice takes change nothing. -/
theorem Clr.chooseIn_succ : ∀ (n : Nat) (c : Clr), c.rounds ≤ n → c.chooseIn (n + 1) = c.chooseIn n := by
  intro n
  induction n with
  | zero => intro c h; unfold Clr.rounds at h; omega
  | succ n ih =>
    intro c h
    conv => lhs; unfold Clr.chooseIn
    conv => rhs; unfold Clr.chooseIn
    split
    · rfl
    · split
      · rename_i w hw
        split
        · rfl
        · exact ih _ (by simp [Clr.rounds, hw] at h ⊢; omega)
      · rename_i hw
        split
        · rfl
        · rename_i c' hc
          exact ih _ (by
            have := Clr.rounds_endWork_le c'
            have := Clr.rounds_takeUp hw hc
            omega)

theorem Clr.chooseIn_eq {n m : Nat} (c : Clr) (hn : c.rounds ≤ n) (hm : c.rounds ≤ m) : c.chooseIn n = c.chooseIn m := by
  have key : ∀ k, c.chooseIn (c.rounds + k) = c.chooseIn c.rounds := by
    intro k
    induction k with
    | zero => rfl
    | succ k ih => rw [← ih, ← Nat.add_assoc]; exact Clr.chooseIn_succ _ c (by omega)
  rw [show n = c.rounds + (n - c.rounds) by omega, show m = c.rounds + (m - c.rounds) by omega, key, key]

theorem Clr.rounds_endWork_bound (c : Clr) : c.endWork.rounds ≤ 2 * c.backfillQueue.length + 5 := by
  have h := Clr.rounds_endWork_le c
  have : c.rounds ≤ 2 * c.backfillQueue.length + 5 := by
    unfold Clr.rounds
    split <;> split <;> omega
  omega

/-- The choice of a free engine, over any number of rounds that suffices. -/
theorem Clr.choose_eq {n : Nat} (c : Clr) (hp : c.pass = none) (hn : c.endWork.rounds ≤ n) :
    c.choose = c.endWork.chooseIn n := by
  unfold Clr.choose
  rw [hp]
  exact Clr.chooseIn_eq _ (Clr.rounds_endWork_bound c) hn

end Sys2Proof.Machine
end

