-- ==== Sys2Proof/Laws/Memory.lean ====
section
/-! SUPPORT. The tile area's memory: what a read gives after a write, and that every write keeps the canonical form. -/

namespace Sys2Proof.Machine.Memory

theorem read_write_same (m : Memory) (x : Nat) (v : Byte) (hm : m.wf) : read (write m x v) x = v := by
  induction m with
  | nil => by_cases hv : v = unwrittenByte <;> simp [write, read, hv]
  | cons c rest ih =>
    obtain ⟨a, b⟩ := c
    obtain ⟨hp, hne⟩ := hm
    rw [List.pairwise_cons] at hp
    have hrest : wf rest := ⟨hp.2, fun c hc => hne c (List.mem_cons_of_mem _ hc)⟩
    have absent : ∀ l : Memory, (∀ c ∈ l, x < c.1) → read l x = unwrittenByte := by
      intro l
      induction l with
      | nil => intro _; rfl
      | cons d l ihl =>
        obtain ⟨d1, d2⟩ := d
        intro h
        have h1 : x < d1 := h (d1, d2) List.mem_cons_self
        simp only [read]
        rw [if_neg (by omega)]
        exact ihl (fun c hc => h c (List.mem_cons_of_mem _ hc))
    unfold write
    split
    · rename_i hlt
      split
      · rename_i hv
        rw [hv]
        refine absent _ ?_
        intro c hc
        rcases List.mem_cons.1 hc with rfl | hc
        · exact hlt
        · exact Nat.lt_trans hlt (hp.1 c hc)
      · simp [read]
    · split
      · rename_i heq
        split
        · rename_i hv
          rw [hv]
          refine absent _ (fun c hc => ?_)
          have := hp.1 c hc
          omega
        · simp [read]
      · rename_i hne'
        simp only [read]
        rw [if_neg hne']
        exact ih hrest

theorem read_write_other (m : Memory) {x y : Nat} (v : Byte) (h : y ≠ x) : read (write m x v) y = read m y := by
  induction m with
  | nil => by_cases hv : v = unwrittenByte <;> simp [write, read, hv, h]
  | cons c rest ih =>
    obtain ⟨a, b⟩ := c
    unfold write
    split
    · split
      · rfl
      · simp [read, h]
    · split
      · rename_i heq
        subst heq
        split
        · simp [read, h]
        · simp [read, h]
      · simp only [read, ih]

/-- Every entry of the memory after a write is a new entry or one that was there. -/
theorem mem_write (m : Memory) (x : Nat) (v : Byte) {c : Host.Cell} (h : c ∈ write m x v) :
    c = (x, v) ∧ v ≠ unwrittenByte ∨ c ∈ m := by
  induction m with
  | nil =>
    by_cases hv : v = unwrittenByte
    · simp [write, hv] at h
    · simp [write, hv] at h
      exact Or.inl ⟨h, hv⟩
  | cons d rest ih =>
    obtain ⟨a, b⟩ := d
    unfold write at h
    split at h
    · split at h
      · exact Or.inr h
      · rename_i hv
        rcases List.mem_cons.1 h with rfl | h
        · exact Or.inl ⟨rfl, hv⟩
        · exact Or.inr h
    · split at h
      · split at h
        · exact Or.inr (List.mem_cons_of_mem _ h)
        · rename_i hv
          rcases List.mem_cons.1 h with rfl | h
          · exact Or.inl ⟨rfl, hv⟩
          · exact Or.inr (List.mem_cons_of_mem _ h)
      · rcases List.mem_cons.1 h with rfl | h
        · exact Or.inr List.mem_cons_self
        · rcases ih h with h | h
          · exact Or.inl h
          · exact Or.inr (List.mem_cons_of_mem _ h)

theorem write_wf (m : Memory) (x : Nat) (v : Byte) (hm : m.wf) : (write m x v).wf := by
  refine ⟨?_, ?_⟩
  · have hp := hm.1
    clear hm
    induction m with
    | nil => by_cases hv : v = unwrittenByte <;> simp [write, hv]
    | cons d rest ih =>
      obtain ⟨a, b⟩ := d
      rw [List.pairwise_cons] at hp
      unfold write
      split
      · rename_i hlt
        split
        · exact List.pairwise_cons.2 hp
        · refine List.pairwise_cons.2 ⟨?_, List.pairwise_cons.2 hp⟩
          intro c hc
          rcases List.mem_cons.1 hc with rfl | hc
          · exact hlt
          · exact Nat.lt_trans hlt (hp.1 c hc)
      · split
        · rename_i heq
          split
          · exact hp.2
          · refine List.pairwise_cons.2 ⟨fun c hc => ?_, hp.2⟩
            have h := hp.1 c hc
            simp only at h ⊢
            omega
        · refine List.pairwise_cons.2 ⟨fun c hc => ?_, ih hp.2⟩
          rcases mem_write rest x v hc with ⟨rfl, _⟩ | hc
          · simp only; omega
          · exact hp.1 c hc
  · intro c hc
    rcases mem_write m x v hc with ⟨rfl, hv⟩ | hc
    · exact hv
    · exact hm.2 c hc

theorem writeList_wf (vs : List Byte) : ∀ (m : Memory) (x : Nat), m.wf → (writeList m x vs).wf := by
  induction vs with
  | nil => intro m x hm; exact hm
  | cons v vs ih => intro m x hm; exact ih _ _ (write_wf m x v hm)

theorem read_writeList_outside (vs : List Byte) : ∀ (m : Memory) (x y : Nat), y < x ∨ x + vs.length ≤ y →
    read (writeList m x vs) y = read m y := by
  induction vs with
  | nil => intro m x y _; rfl
  | cons v vs ih =>
    intro m x y h
    simp only [List.length_cons] at h
    rw [writeList, ih _ _ _ (by omega), read_write_other _ _ (by omega)]

theorem read_writeList_inside (vs : List Byte) : ∀ (m : Memory) (x i : Nat), m.wf → (h : i < vs.length) →
    read (writeList m x vs) (x + i) = vs[i] := by
  induction vs with
  | nil => intro m x i _ h; simp at h
  | cons v vs ih =>
    intro m x i hm h
    rw [writeList]
    cases i with
    | zero => rw [read_writeList_outside _ _ _ _ (by omega)]; simpa using read_write_same m x v hm
    | succ i =>
      have := ih (write m x v) (x + 1) i (write_wf m x v hm) (by simpa using h)
      rw [show x + (i + 1) = x + 1 + i by omega]
      simpa using this

end Sys2Proof.Machine.Memory
end

