-- ==== Sys2Proof/Laws/Operands.lean ====
section
/-! SUPPORT. What the readers of data blocks give: fields byte by byte, the first failing test, the records of a list. -/

namespace Sys2Proof.Machine

/-! ### Fields (R190) -/

@[simp] theorem field_zero (b : List Byte) (off : Nat) : field b off 0 = 0 := rfl

/-- A field is its first byte and, above it, the field of the bytes that follow; bytes beyond the block read as 0. -/
theorem field_succ (b : List Byte) (off n : Nat) :
    field b off (n + 1) = (b.getD off 0).toNat + 256 * field b (off + 1) n := by
  unfold field
  by_cases h : off < b.length
  · rw [List.drop_eq_getElem_cons h, List.take_succ_cons]
    simp [leNat, List.getD, h]
  · have h1 : b.drop off = [] := List.drop_eq_nil_of_le (by omega)
    have h2 : b.drop (off + 1) = [] := List.drop_eq_nil_of_le (by omega)
    simp [h1, h2, leNat, List.getD, List.getElem?_eq_none (show b.length ≤ off by omega)]

/-- A 4-byte field in two's complement. -/
theorem signedOf_four (v : Nat) (h : v < 2 ^ 32) : signedOf 4 v = (BitVec.ofNat 32 v).toInt := by
  unfold signedOf
  rw [BitVec.toInt_eq_toNat_cond, BitVec.toNat_ofNat, Nat.mod_eq_of_lt h]
  split <;> split <;> omega

/-! ### The first failing test (R46, R102) -/

theorem firstFailure_eq_none {l : List (Nat × Bool)} : firstFailure l = none ↔ ∀ t ∈ l, t.2 = true := by
  induction l with
  | nil => simp [firstFailure]
  | cons t rest ih =>
    obtain ⟨n, ok⟩ := t
    cases ok <;> simp [firstFailure, ih]

theorem firstFailure_eq_some {l : List (Nat × Bool)} {n : Nat} : firstFailure l = some n ↔
    ∃ before after, l = before ++ (n, false) :: after ∧ ∀ t ∈ before, t.2 = true := by
  induction l with
  | nil => simp [firstFailure]
  | cons t rest ih =>
    obtain ⟨m, ok⟩ := t
    cases ok
    · constructor
      · intro h
        simp only [firstFailure, Bool.false_eq_true, if_false, Option.some.injEq] at h
        exact ⟨[], rest, by rw [h]; rfl, by simp⟩
      · rintro ⟨before, after, h, hb⟩
        cases before with
        | nil => simp at h; simp [firstFailure, h.1]
        | cons u us => simp at h; have := hb u (by simp); rw [← h.1] at this; exact absurd this (by simp)
    · rw [firstFailure, if_pos rfl, ih]
      constructor
      · rintro ⟨before, after, h, hb⟩
        exact ⟨(m, true) :: before, after, by rw [h]; rfl, by simpa using hb⟩
      · rintro ⟨before, after, h, hb⟩
        cases before with
        | nil => simp at h
        | cons u us =>
          simp at h
          exact ⟨us, after, h.2, fun t ht => hb t (by simp [ht])⟩

/-! ### The records of a list (R77, R103) -/

@[simp] theorem length_recordsOf (size : Nat) : ∀ (n : Nat) (b : List Byte), (recordsOf size n b).length = n
  | 0, _ => rfl
  | n + 1, b => by rw [recordsOf, List.length_cons, length_recordsOf size n]

theorem getElem?_recordsOf (size : Nat) : ∀ (n i : Nat) (b : List Byte), i < n →
    (recordsOf size n b)[i]? = some ((b.drop (size * i)).take size)
  | 0, i, _, h => absurd h (Nat.not_lt_zero i)
  | n + 1, 0, b, _ => by simp [recordsOf]
  | n + 1, i + 1, b, h => by
    rw [recordsOf, List.getElem?_cons_succ, getElem?_recordsOf size n i _ (Nat.lt_of_succ_lt_succ h), List.drop_drop]
    rw [Nat.mul_succ, Nat.add_comm]

/-- A byte of a field inside a record is a byte of the block. -/
theorem getD_record (b : List Byte) (size i k : Nat) (h : k < size) :
    ((b.drop (size * i)).take size).getD k 0 = b.getD (size * i + k) 0 := by
  simp [List.getD, h, List.getElem?_drop]

end Sys2Proof.Machine
end

