-- ==== Sys2Proof/Laws/Payloads.lean ====
section
/-! SUPPORT. How bytes are cut into the payloads of DATA-IN frames, and the sizes of little-endian fields. -/

namespace Sys2Proof.Machine

theorem payloadsOf_go_flatten : ∀ (n : Nat) (bs : List Byte), bs.length < n * maxPayload →
    (payloadsOf.go n bs).flatten = bs := by
  intro n
  induction n with
  | zero => intro bs h; simp at h
  | succ n ih =>
    intro bs h
    unfold payloadsOf.go
    split
    · rename_i he; rw [List.isEmpty_iff.mp he]; rfl
    · rename_i he
      rw [List.flatten_cons]
      by_cases hl : bs.length ≤ maxPayload
      · have hd : bs.drop maxPayload = [] := List.drop_eq_nil_of_le hl
        rw [hd]
        have : (payloadsOf.go n []).flatten = [] := by cases n <;> rfl
        rw [this, List.append_nil, List.take_of_length_le hl]
      · rw [ih _ (by rw [List.length_drop]; rw [Nat.succ_mul] at h; omega), List.take_append_drop]

theorem payloadsOf_flatten (bs : List Byte) : (payloadsOf bs).flatten = bs := by
  apply payloadsOf_go_flatten
  have := Nat.div_add_mod bs.length maxPayload
  have := Nat.mod_lt bs.length (show 0 < maxPayload by decide)
  rw [Nat.succ_mul, Nat.mul_comm]
  omega

theorem payloadsOf_go_size : ∀ (n : Nat) (bs : List Byte), ∀ x ∈ payloadsOf.go n bs, 1 ≤ x.length ∧ x.length ≤ 1024 := by
  intro n
  induction n with
  | zero => intro bs x h; cases h
  | succ n ih =>
    intro bs x h
    unfold payloadsOf.go at h
    split at h
    · cases h
    · rename_i he
      rcases List.mem_cons.mp h with h | h
      · subst h
        have : 1 ≤ bs.length := by
          cases bs with
          | nil => exact absurd rfl he
          | cons a l => simp
        rw [List.length_take]
        unfold maxPayload
        omega
      · exact ih _ x h

theorem payloadsOf_size (bs : List Byte) : ∀ x ∈ payloadsOf bs, 1 ≤ x.length ∧ x.length ≤ 1024 :=
  payloadsOf_go_size _ bs

/-- A block that fits one frame is one payload. -/
theorem payloadsOf_single {bs : List Byte} (h1 : bs ≠ []) (h2 : bs.length ≤ 1024) : payloadsOf bs = [bs] := by
  have hd : bs.drop maxPayload = [] := List.drop_eq_nil_of_le h2
  unfold payloadsOf
  unfold payloadsOf.go
  rw [if_neg (by simpa using h1), List.take_of_length_le (by exact h2), hd]
  congr 1
  cases bs.length / maxPayload <;> rfl

@[simp] theorem length_leBytes : ∀ (n v : Nat), (leBytes n v).length = n := by
  intro n
  induction n with
  | zero => intro v; rfl
  | succ n ih => intro v; simp [leBytes, ih]

theorem length_counters (s : State) : s.counters.length = 48 := rfl

theorem length_counterBytes (s : State) : (s.counters.flatMap (leBytes 4)).length = 192 := by
  simp only [List.length_flatMap, length_leBytes, List.map_const', List.sum_replicate_nat, length_counters]

end Sys2Proof.Machine
end

