-- ==== Sys2Proof/Laws/Settle.lean ====
section
/-! SUPPORT. What the ring, the colour engine and the streams leave alone when they act inside a step: `Kept s t` says
everything that `settle` and the operations it is made of keep. -/

namespace Sys2Proof.Machine

/-- A property of an attention controller that no raise breaks. -/
def Raisable (P : Atn → Prop) : Prop := ∀ (a : Atn) (e : EventPos) (l : LinkState), P a → P (a.raise e l)

/-- What the ring side of a step keeps. `frames`: every frame handed stays, but for its mark that its command has ended.
`idle`: no tag is taken. `shut`: no stream opens. `sense`: a sense record changes only where a stream is OPEN. -/
structure Kept (s t : State) : Prop where
  tb : t.tb = s.tb
  ang : t.ang = s.ang
  eca : t.eca = s.eca
  scn : t.scn = s.scn
  exs : t.exs = s.exs
  pending : t.pending = s.pending
  openLine : t.lnb.openLine = s.lnb.openLine
  lineCounter : t.lnb.lineCounter = s.lnb.lineCounter
  spent : t.lnb.spent = s.lnb.spent
  mask : t.lnb.mask = s.lnb.mask
  lnbCounters : t.lnb.counters = s.lnb.counters
  fifo : t.lnb.fifo <:+ s.lnb.fifo
  tileArea : t.clr.tileArea = s.clr.tileArea
  link : ∀ p, (t.port p).link = (s.port p).link
  role : ∀ p, (t.port p).role = (s.port p).role
  portCounters : ∀ p, (t.port p).counters = (s.port p).counters
  silent : ∀ p, (s.port p).link = .down → (s.port p).outgoing = [] → (t.port p).outgoing = []
  atn : ∀ P : Atn → Prop, Raisable P → ∀ p, P (s.atn.get p) → P (t.atn.get p)
  frames : ∀ p, ∀ f ∈ (s.port p).outgoing, ∃ f' ∈ (t.port p).outgoing, f'.tag = f.tag ∧ f'.body = f.body
  idle : ∀ p tag, (s.port p).tags.get tag = none → (t.port p).tags.get tag = none
  shut : ∀ p, (s.stream p).isOpen = false → (t.stream p).isOpen = false
  checks : ∀ p, (s.stream p).table.length ≤ 64 → (t.stream p).table.length ≤ 64
  sense : ∀ p, (s.stream p).isOpen = false → (t.port p).sense = (s.port p).sense

/-- Frames that stay where they are. -/
theorem frames_of_subset {l m : List OutFrame} (h : ∀ f ∈ l, f ∈ m) :
    ∀ f ∈ l, ∃ f' ∈ m, f'.tag = f.tag ∧ f'.body = f.body := fun f hf => ⟨f, h f hf, rfl, rfl⟩

theorem Kept.refl (s : State) : Kept s s :=
  ⟨rfl, rfl, rfl, rfl, rfl, rfl, rfl, rfl, rfl, rfl, rfl, List.suffix_refl _, rfl, fun _ => rfl, fun _ => rfl,
    fun _ => rfl, fun _ _ h => h, fun _ _ _ h => h, fun _ => frames_of_subset (fun _ h => h), fun _ _ h => h,
    fun _ h => h, fun _ h => h, fun _ _ => rfl⟩

theorem Kept.trans {s t u : State} (h : Kept s t) (k : Kept t u) : Kept s u where
  tb := k.tb.trans h.tb
  ang := k.ang.trans h.ang
  eca := k.eca.trans h.eca
  scn := k.scn.trans h.scn
  exs := k.exs.trans h.exs
  pending := k.pending.trans h.pending
  openLine := k.openLine.trans h.openLine
  lineCounter := k.lineCounter.trans h.lineCounter
  spent := k.spent.trans h.spent
  mask := k.mask.trans h.mask
  lnbCounters := k.lnbCounters.trans h.lnbCounters
  fifo := k.fifo.trans h.fifo
  tileArea := k.tileArea.trans h.tileArea
  link p := (k.link p).trans (h.link p)
  role p := (k.role p).trans (h.role p)
  portCounters p := (k.portCounters p).trans (h.portCounters p)
  silent p hd ho := k.silent p ((h.link p).trans hd) (h.silent p hd ho)
  atn P hP p hp := k.atn P hP p (h.atn P hP p hp)
  frames p f hf := by
    obtain ⟨f1, h1, ht1, hb1⟩ := h.frames p f hf
    obtain ⟨f2, h2, ht2, hb2⟩ := k.frames p f1 h1
    exact ⟨f2, h2, ht2.trans ht1, hb2.trans hb1⟩
  idle p tag ht := k.idle p tag (h.idle p tag ht)
  shut p hs := k.shut p (h.shut p hs)
  checks p hc := k.checks p (h.checks p hc)
  sense p hs := (k.sense p (h.shut p hs)).trans (h.sense p hs)

/-- An update of the ring's, the streams' and the colour engine's own state, but for the tile area. -/
theorem Kept.of_own {s t : State} (tb : t.tb = s.tb) (ang : t.ang = s.ang) (eca : t.eca = s.eca)
    (scn : t.scn = s.scn) (exs : t.exs = s.exs) (pending : t.pending = s.pending) (lnb : t.lnb = s.lnb)
    (area : t.clr.tileArea = s.clr.tileArea) (prt : t.prt = s.prt) (atn : t.atn = s.atn)
    (shut : ∀ p, (s.stream p).isOpen = false → (t.stream p).isOpen = false := by exact fun _ h => h)
    (checks : ∀ p, (s.stream p).table.length ≤ 64 → (t.stream p).table.length ≤ 64 := by exact fun _ h => h) :
    Kept s t where
  tb := tb
  ang := ang
  eca := eca
  scn := scn
  exs := exs
  pending := pending
  openLine := by rw [lnb]
  lineCounter := by rw [lnb]
  spent := by rw [lnb]
  mask := by rw [lnb]
  lnbCounters := by rw [lnb]
  fifo := lnb ▸ List.suffix_refl _
  tileArea := area
  link p := by simp [State.port, prt]
  role p := by simp [State.port, prt]
  portCounters p := by simp [State.port, prt]
  silent p _ h := by simpa [State.port, prt] using h
  atn P _ p h := by rw [atn]; exact h
  frames p := by simp only [State.port, prt]; exact frames_of_subset (fun _ h => h)
  idle p tag h := by simpa [State.port, prt] using h
  shut := shut
  checks := checks
  sense p _ := by simp [State.port, prt]

/-- A change of one port that keeps its link, role and counters and hands nothing while the link is DOWN. -/
theorem Kept.modPort (s : State) (p : PortId) (f : Port → Port) (hl : ∀ q, (f q).link = q.link)
    (hr : ∀ q, (f q).role = q.role) (hc : ∀ q, (f q).counters = q.counters)
    (ho : ∀ q, q.link = .down → q.outgoing = [] → (f q).outgoing = [])
    (hf : ∀ q, ∀ x ∈ q.outgoing, ∃ x' ∈ (f q).outgoing, x'.tag = x.tag ∧ x'.body = x.body)
    (hi : ∀ q tag, q.tags.get tag = none → (f q).tags.get tag = none)
    (hs : (s.stream p).isOpen = false → (f (s.port p)).sense = (s.port p).sense) : Kept s (s.modPort p f) where
  tb := rfl
  ang := rfl
  eca := rfl
  scn := rfl
  exs := rfl
  pending := rfl
  openLine := rfl
  lineCounter := rfl
  spent := rfl
  mask := rfl
  lnbCounters := rfl
  fifo := List.suffix_refl _
  tileArea := rfl
  link q := by
    by_cases h : q = p
    · subst h; simp [hl]
    · rw [State.port_modPort_other s f h]
  role q := by
    by_cases h : q = p
    · subst h; simp [hr]
    · rw [State.port_modPort_other s f h]
  portCounters q := by
    by_cases h : q = p
    · subst h; simp [hc]
    · rw [State.port_modPort_other s f h]
  silent q hd h0 := by
    by_cases h : q = p
    · subst h; simpa using ho _ hd h0
    · rw [State.port_modPort_other s f h]; exact h0
  atn _ _ _ h := h
  frames q := by
    by_cases h : q = p
    · subst h; simpa using hf _
    · rw [State.port_modPort_other s f h]; exact frames_of_subset (fun _ h => h)
  idle q tag h0 := by
    by_cases h : q = p
    · subst h; simpa using hi _ tag h0
    · rw [State.port_modPort_other s f h]; exact h0
  shut _ h := h
  checks _ h := h
  sense q h0 := by
    by_cases h : q = p
    · subst h; simpa using hs h0
    · rw [State.port_modPort_other s f h]

theorem Kept.raiseOn (s : State) (p : PortId) (e : EventPos) : Kept s (s.raiseOn p e) where
  tb := rfl
  ang := rfl
  eca := rfl
  scn := rfl
  exs := rfl
  pending := rfl
  openLine := rfl
  lineCounter := rfl
  spent := rfl
  mask := rfl
  lnbCounters := rfl
  fifo := List.suffix_refl _
  tileArea := rfl
  link _ := rfl
  role _ := rfl
  portCounters _ := rfl
  silent _ _ h := h
  atn P hP q h := by
    by_cases hq : q = p
    · subst hq; rw [State.atn_raiseOn_same]; exact hP _ _ _ h
    · rw [State.atn_raiseOn_other s e hq]; exact h
  frames _ := frames_of_subset (fun _ h => h)
  idle _ _ h := h
  shut _ h := h
  checks _ h := h
  sense _ _ := rfl

theorem Kept.raiseAll (s : State) (e : EventPos) : Kept s (s.raiseAll e) where
  tb := rfl
  ang := rfl
  eca := rfl
  scn := rfl
  exs := rfl
  pending := rfl
  openLine := rfl
  lineCounter := rfl
  spent := rfl
  mask := rfl
  lnbCounters := rfl
  fifo := List.suffix_refl _
  tileArea := rfl
  link _ := rfl
  role _ := rfl
  portCounters _ := rfl
  silent _ _ h := h
  atn P hP q h := by rw [State.atn_raiseAll]; exact hP _ _ _ h
  frames _ := frames_of_subset (fun _ h => h)
  idle _ _ h := h
  shut _ h := h
  checks _ h := h
  sense _ _ := rfl

theorem Kept.foldl {α : Type} {f : State → α → State} (hf : ∀ s a, Kept s (f s a)) :
    ∀ (l : List α) (s : State), Kept s (l.foldl f s) := by
  intro l
  induction l with
  | nil => intro s; exact Kept.refl s
  | cons a l ih => intro s; exact (hf s a).trans (ih _)

/-! ### Ports -/

theorem Port.hand_link (f : OutFrame) (q : Port) : (q.hand f).link = q.link := by
  unfold Port.hand; split <;> rfl

theorem Port.hand_role (f : OutFrame) (q : Port) : (q.hand f).role = q.role := by
  unfold Port.hand; split <;> rfl

theorem Port.hand_counters (f : OutFrame) (q : Port) : (q.hand f).counters = q.counters := by
  unfold Port.hand; split <;> rfl

theorem Port.hand_tags (f : OutFrame) (q : Port) : (q.hand f).tags = q.tags := by
  unfold Port.hand; split <;> rfl

theorem Port.hand_sense (f : OutFrame) (q : Port) : (q.hand f).sense = q.sense := by
  unfold Port.hand; split <;> rfl

theorem Port.hand_down (f : OutFrame) (q : Port) (h : q.link = .down) : q.hand f = q := by
  unfold Port.hand; rw [h]

theorem Port.hand_up (f : OutFrame) (q : Port) (h : q.link = .up) :
    q.hand f = { q with outgoing := q.outgoing ++ [f] } := by
  unfold Port.hand; rw [h]

theorem Port.hand_frames (f : OutFrame) (q : Port) :
    ∀ x ∈ q.outgoing, ∃ x' ∈ (q.hand f).outgoing, x'.tag = x.tag ∧ x'.body = x.body := by
  unfold Port.hand
  split
  · exact frames_of_subset (fun _ h => h)
  · exact frames_of_subset (fun _ h => List.mem_append_left _ h)

theorem Port.idleTag_frames (tag : Tag) (q : Port) :
    ∀ x ∈ q.outgoing, ∃ x' ∈ (q.idleTag tag).outgoing, x'.tag = x.tag ∧ x'.body = x.body := by
  intro x hx
  refine ⟨_, List.mem_map_of_mem hx, ?_⟩
  split <;> exact ⟨rfl, rfl⟩

theorem Port.idleTag_hand_frames (tag : Tag) (f : OutFrame) (q : Port) :
    ∀ x ∈ q.outgoing, ∃ x' ∈ ((q.idleTag tag).hand f).outgoing, x'.tag = x.tag ∧ x'.body = x.body := by
  intro x hx
  obtain ⟨y, hy, ht, hb⟩ := Port.idleTag_frames tag q x hx
  obtain ⟨z, hz, ht', hb'⟩ := Port.hand_frames f _ y hy
  exact ⟨z, hz, ht'.trans ht, hb'.trans hb⟩

theorem Port.idleTag_idle (tag : Tag) (q : Port) (x : Tag) (h : q.tags.get x = none) :
    (q.idleTag tag).tags.get x = none := by
  simp only [Port.idleTag, Quad.get_set]
  split
  · rfl
  · exact h

theorem Kept.hand (s : State) (p : PortId) (f : OutFrame) : Kept s (s.modPort p (Port.hand f)) :=
  Kept.modPort s p _ (Port.hand_link f) (Port.hand_role f) (Port.hand_counters f)
    (fun q hd h => by rw [Port.hand_down f q hd]; exact h) (Port.hand_frames f)
    (fun q _ h => by rw [Port.hand_tags]; exact h) (fun _ => Port.hand_sense f _)

theorem Kept.answer (s : State) (p : PortId) (tag : Tag) (st : Status) : Kept s (s.answer p tag st) :=
  Kept.hand s p _

theorem Kept.accept (s : State) (p : PortId) (tag : Tag) : Kept s (s.accept p tag) := Kept.hand s p _

theorem Kept.finish (s : State) (p : PortId) (tag : Tag) (st : Status) : Kept s (s.finish p tag st) :=
  Kept.modPort s p _ (fun q => Port.hand_link _ (q.idleTag tag)) (fun q => Port.hand_role _ (q.idleTag tag))
    (fun q => Port.hand_counters _ (q.idleTag tag))
    (fun q hd h => by
      show ((q.idleTag tag).hand _).outgoing = []
      rw [Port.hand_down _ (q.idleTag tag) hd]; simp [Port.idleTag, h])
    (Port.idleTag_hand_frames tag _)
    (fun q x h => by
      show ((q.idleTag tag).hand _).tags.get x = none
      rw [Port.hand_tags]; exact Port.idleTag_idle tag q x h)
    (fun _ => Port.hand_sense _ _)

/-- A final CHECK sets a sense record, so its port's stream must be OPEN. -/
theorem Kept.finishCheck (s : State) (p : PortId) (tag : Tag) (c : SenseClass) (code : Nat) (info : Option Nat)
    (ho : (s.stream p).isOpen = true) : Kept s (s.finishCheck p tag c code info) :=
  Kept.modPort s p _ (fun q => Port.hand_link _ (q.idleTag tag)) (fun q => Port.hand_role _ (q.idleTag tag))
    (fun q => Port.hand_counters _ (q.idleTag tag))
    (fun q hd h => by
      show ((q.idleTag tag).hand _).outgoing = []
      rw [Port.hand_down _ (q.idleTag tag) hd]; simp [Port.idleTag, h])
    (Port.idleTag_hand_frames tag _)
    (fun q x h => by
      show ((q.idleTag tag).hand _).tags.get x = none
      rw [Port.hand_tags]; exact Port.idleTag_idle tag q x h)
    (fun h => by rw [h] at ho; cases ho)

/-! ### Streams -/

/-- A change of one stream that does not open it and keeps its table's bound. -/
theorem Kept.modStr (s : State) (p : PortId) (f : Stream → Stream)
    (ho : ∀ st, st.isOpen = false → (f st).isOpen = false := by exact fun _ h => h)
    (hc : ∀ st, st.table.length ≤ 64 → (f st).table.length ≤ 64 := by exact fun _ h => h) : Kept s (s.modStr p f) :=
  Kept.of_own rfl rfl rfl rfl rfl rfl rfl rfl rfl rfl
    (fun q h => by
      by_cases hq : q = p
      · subst hq; simpa using ho _ h
      · rw [State.stream_modStr_other s f hq]; exact h)
    (fun q h => by
      by_cases hq : q = p
      · subst hq; simpa using hc _ h
      · rw [State.stream_modStr_other s f hq]; exact h)

theorem Kept.withdraw (s : State) (o : TransferOwner) : Kept s (s.withdraw o) :=
  Kept.of_own rfl rfl rfl rfl rfl rfl rfl rfl rfl rfl

theorem Kept.stopRead (s : State) (p : PortId) : Kept s (s.stopRead p) :=
  (Kept.modStr s p _).trans (Kept.withdraw _ _)

theorem Kept.holdLine (s : State) (p : PortId) (r : LinesRead) (n : Nat) : Kept s (s.holdLine p r n) := by
  unfold State.holdLine
  split
  · exact Kept.refl s
  · exact (Kept.modStr s p _).trans (Kept.hand _ p _)

theorem Kept.beginLine (s : State) (p : PortId) (r : LinesRead) (n : Nat) : Kept s (s.beginLine p r n) := by
  unfold State.beginLine
  split
  · exact Kept.modStr s p _
  · exact Kept.holdLine s p r n

theorem Kept.beginRead (s : State) (p : PortId) : Kept s (s.beginRead p) := by
  unfold State.beginRead
  split
  · exact Kept.refl s
  · split
    · split
      · exact Kept.refl s
      · exact Kept.beginLine s p _ _
    · exact Kept.refl s
    · split
      · exact Kept.refl s
      · exact Kept.holdLine s p _ _

theorem Kept.beginReads (s : State) : Kept s s.beginReads := Kept.foldl Kept.beginRead _ s

theorem Kept.endRead (s : State) (p : PortId) (tag : Tag) : Kept s (s.endRead p tag) := by
  have h : Kept s ((s.stopRead p).finish p tag .done) := (Kept.stopRead s p).trans (Kept.finish _ p tag _)
  unfold State.endRead
  simp only
  split
  · exact h.trans (Kept.raiseOn _ p _)
  · exact h

theorem Stream.watch_isOpen (st : Stream) (n : Nat) : (st.watch n).1.isOpen = st.isOpen := by
  unfold Stream.watch
  split
  · rfl
  · split <;> rfl

theorem evicted_mem {t : List CheckEntry} {e : CheckEntry} (h : evicted t = some e) : e ∈ t := by
  unfold evicted at h
  split at h
  · rename_i x hx
    cases h; exact List.mem_of_find?_eq_some hx
  · exact List.mem_of_head? h

theorem Stream.watch_table (st : Stream) (n : Nat) (h : st.table.length ≤ 64) : (st.watch n).1.table.length ≤ 64 := by
  unfold Stream.watch
  split
  · rename_i hl
    simp only [List.length_append, List.length_cons, List.length_nil]
    unfold tableCapacity at hl; omega
  · rename_i hl
    split
    · rename_i he
      exfalso
      unfold evicted at he
      split at he
      · cases he
      · rw [List.head?_eq_none_iff] at he
        rw [he] at hl; exact hl (by decide)
    · rename_i e he
      have := List.length_erase_of_mem (evicted_mem he)
      simp only [List.length_append, List.length_cons, List.length_nil]
      omega

theorem Kept.makeEntry (s : State) (p : PortId) (n : Nat) : Kept s (s.makeEntry p n) := by
  have h : Kept s (s.modStr p (fun _ => ((s.stream p).watch n).1)) :=
    Kept.of_own rfl rfl rfl rfl rfl rfl rfl rfl rfl rfl
      (fun q h => by
        by_cases hq : q = p
        · subst hq; rw [State.stream_modStr_same, Stream.watch_isOpen]; exact h
        · rw [State.stream_modStr_other s _ hq]; exact h)
      (fun q h => by
        by_cases hq : q = p
        · subst hq; rw [State.stream_modStr_same]; exact Stream.watch_table _ n h
        · rw [State.stream_modStr_other s _ hq]; exact h)
  unfold State.makeEntry
  exact h.trans (Kept.of_own rfl rfl rfl rfl rfl rfl rfl rfl rfl rfl)

theorem Kept.completeDelivery (s : State) (p : PortId) (r : LinesRead) (l : RingLine) :
    Kept s (s.completeDelivery p r l) := by
  have h1 := Kept.modStr s p
    (fun st => { st with readPoint := l.number, read := some { r with remaining := r.remaining - 1, state := .waiting } })
  unfold State.completeDelivery
  simp only
  have key : ∀ u : State, Kept s u →
      Kept s (if r.remaining - 1 = 0 then u.endRead p r.tag
        else match u.deliverable p with
          | none => u.endRead p r.tag
          | some next => u.beginLine p { r with remaining := r.remaining - 1 } next.number) := by
    intro u hu
    split
    · exact hu.trans (Kept.endRead u p _)
    · split
      · exact hu.trans (Kept.endRead u p _)
      · exact hu.trans (Kept.beginLine u p _ _)
  apply key
  split
  · exact h1.trans (Kept.makeEntry _ p _)
  · exact h1

theorem Kept.changeNoticeOn (n : Nat) (s : State) (p : PortId) : Kept s (State.changeNoticeOn n s p) := by
  unfold State.changeNoticeOn
  split
  · exact (Kept.modStr s p (fun st => st.markChanged n) (fun _ h => h)
      (fun st h => by simpa [Stream.markChanged] using h)).trans
      (Kept.raiseOn _ p _)
  · exact Kept.refl s

theorem Kept.changeNotice (s : State) (n : Nat) : Kept s (s.changeNotice n) :=
  Kept.foldl (Kept.changeNoticeOn n) _ s

theorem State.stream_stopRead_isOpen (s : State) (p : PortId) :
    ((s.stopRead p).stream p).isOpen = (s.stream p).isOpen := by
  show ((s.modStr p (fun st => { st with read := none })).stream p).isOpen = _
  rw [State.stream_modStr_same]

theorem Kept.cutDelivery (s : State) (p : PortId) (r : LinesRead) (n : Nat) (ho : (s.stream p).isOpen = true) :
    Kept s (s.cutDelivery p r n) :=
  ((Kept.stopRead s p).trans
    (Kept.finishCheck _ p _ _ _ _ ((State.stream_stopRead_isOpen s p).trans ho))).trans
    (Kept.of_own rfl rfl rfl rfl rfl rfl rfl rfl rfl rfl)

theorem Stream.length_forget (st : Stream) (n : Nat) (h : st.table.length ≤ 64) : (st.forget n).table.length ≤ 64 :=
  Nat.le_trans (List.length_filter_le _ _) h

theorem Kept.reclaimOn (n : Nat) (s : State) (p : PortId) : Kept s (State.reclaimOn n s p) := by
  have h1 := Kept.modStr s p (fun st => st.forget n) (fun _ h => h) (fun st h => Stream.length_forget st n h)
  have h2 := (h1.trans (Kept.modStr _ p (fun st => st.advance n))).trans (Kept.raiseOn _ p evOverrun)
  unfold State.reclaimOn
  simp only
  split
  · rename_i ho
    split
    · exact h2.trans (Kept.of_own rfl rfl rfl rfl rfl rfl rfl rfl rfl rfl)
    · refine Kept.trans ?_ (Kept.cutDelivery _ p _ n ?_)
      · exact h2.trans (Kept.of_own rfl rfl rfl rfl rfl rfl rfl rfl rfl rfl)
      · show ((((s.modStr p (fun st => st.forget n)).modStr p (fun st => st.advance n))).stream p).isOpen = true
        rw [State.stream_modStr_same, State.stream_modStr_same]
        unfold Stream.overrunBy at ho
        simp only [Bool.and_eq_true] at ho
        exact ho.1.1
  · exact h1

theorem Kept.strReclaim (s : State) (n : Nat) : Kept s (s.strReclaim n) := Kept.foldl (Kept.reclaimOn n) _ s

theorem Kept.closeStream (s : State) (p : PortId) (replies : Bool) : Kept s (s.closeStream p replies) := by
  have hc : ∀ u : State, Kept u (u.modStr p Stream.closed) := fun u =>
    Kept.modStr u p _ (fun _ _ => rfl) (fun _ _ => Nat.zero_le _)
  unfold State.closeStream
  split
  · rename_i ho
    simp only
    split
    · exact (Kept.stopRead s p).trans (hc _)
    · split
      · exact ((Kept.stopRead s p).trans
          (Kept.finishCheck _ p _ _ _ _ ((State.stream_stopRead_isOpen s p).trans ho))).trans (hc _)
      · exact (Kept.stopRead s p).trans (hc _)
  · exact Kept.refl s

theorem Kept.closeStreams (s : State) : Kept s s.closeStreams := Kept.foldl (fun s p => Kept.closeStream s p true) _ s

theorem Kept.raiseReady (before s : State) : Kept s (State.raiseReady before s) := by
  refine Kept.foldl (fun s p => ?_) _ s
  split
  · exact Kept.raiseOn s p _
  · exact Kept.refl s

/-! ### The colour engine -/

theorem Clr.endWork_tileArea (c : Clr) : c.endWork.tileArea = c.tileArea := by
  unfold Clr.endWork
  split
  · rfl
  · split <;> rfl

theorem Clr.takeUp_tileArea {c c' : Clr} (h : c.takeUp = some c') : c'.tileArea = c.tileArea := by
  unfold Clr.takeUp at h
  simp only at h
  split at h
  · cases h; rfl
  · split at h
    · cases h
    · cases h; rfl

theorem Clr.chooseIn_tileArea : ∀ (n : Nat) (c : Clr), (c.chooseIn n).tileArea = c.tileArea := by
  intro n
  induction n with
  | zero => intro c; rfl
  | succ n ih =>
    intro c
    unfold Clr.chooseIn
    split
    · rfl
    · split
      · split
        · rfl
        · rw [ih]
      · split
        · rfl
        · rename_i c' h
          rw [ih, Clr.endWork_tileArea, Clr.takeUp_tileArea h]

theorem Clr.choose_tileArea (c : Clr) : c.choose.tileArea = c.tileArea := by
  unfold Clr.choose
  split
  · rfl
  · rw [Clr.chooseIn_tileArea, Clr.endWork_tileArea]

theorem Kept.chooseWork (s : State) : Kept s s.chooseWork :=
  Kept.of_own rfl rfl rfl rfl rfl rfl rfl (Clr.choose_tileArea _) rfl rfl

theorem Kept.retireDone (s : State) (t : TileSlot) : Kept s (s.retireDone t) := by
  unfold State.retireDone
  split
  · exact Kept.refl s
  · exact Kept.finish s _ _ _

theorem Kept.releasePins (s : State) : Kept s s.releasePins := by
  unfold State.releasePins
  refine Kept.trans ?_ (Kept.foldl Kept.retireDone _ _)
  exact Kept.of_own rfl rfl rfl rfl rfl rfl rfl rfl rfl rfl

theorem Kept.cutPass (s : State) : Kept s s.cutPass := by
  unfold State.cutPass
  split
  · exact Kept.refl s
  · have h0 : Kept s { s with clr := { s.clr with pass := none } } :=
      Kept.of_own rfl rfl rfl rfl rfl rfl rfl rfl rfl rfl
    exact (h0.trans (Kept.releasePins _)).trans (Kept.withdraw _ _)

theorem Kept.clrReclaim (s : State) (n : Nat) : Kept s (s.clrReclaim n) := by
  have h : Kept s { s with clr := { s.clr with pendingList := s.clr.pendingList.filter (fun l => decide (l ≠ n)) } } :=
    Kept.of_own rfl rfl rfl rfl rfl rfl rfl rfl rfl rfl
  unfold State.clrReclaim
  simp only
  split
  · exact h
  · split
    · exact h.trans (Kept.cutPass _)
    · exact h

theorem Kept.clrDiscard (s : State) : Kept s s.clrDiscard := by
  have h0 : Kept s { s with clr := { s.clr with colourQueue := [], pendingList := [] } } :=
    Kept.of_own rfl rfl rfl rfl rfl rfl rfl rfl rfl rfl
  exact h0.trans (Kept.cutPass _)

/-! ### The ring writer and the arbiter -/

theorem Kept.reclaimHead (s : State) (l : RingLine) : Kept s (s.reclaimHead l) := by
  have h0 : Kept s { s with rng := { s.rng with committed := s.rng.committed.tail } } :=
    Kept.of_own rfl rfl rfl rfl rfl rfl rfl rfl rfl rfl
  exact ((h0.trans (Kept.strReclaim _ _)).trans (Kept.clrReclaim _ _)).trans (Kept.raiseReady _ _)

theorem Kept.reclaimFor (bytes : Nat) : ∀ (k : Nat) (s : State), Kept s (State.reclaimFor bytes k s) := by
  intro k
  induction k with
  | zero => intro s; exact Kept.refl s
  | succ k ih =>
    intro s
    unfold State.reclaimFor
    split
    · exact Kept.refl s
    · split
      · exact Kept.refl s
      · split
        · exact (Kept.reclaimHead s _).trans (ih _)
        · exact Kept.refl s

theorem Kept.admitBytes (s : State) (bytes : Nat) : Kept s (s.admitBytes bytes).1 := Kept.reclaimFor bytes _ s

/-- An update of RNG's state and LNB's waiting reports. -/
theorem Kept.abandon (s : State) (n lostPoints : Nat) : Kept s (s.abandon n lostPoints) := by
  refine Kept.trans ?_ (Kept.raiseAll _ _)
  exact ⟨rfl, rfl, rfl, rfl, rfl, rfl, rfl, rfl, rfl, rfl, rfl, List.suffix_refl _, rfl, fun _ => rfl, fun _ => rfl,
    fun _ => rfl, fun _ _ h => h, fun _ _ _ h => h, fun _ => frames_of_subset (fun _ h => h), fun _ _ h => h,
    fun _ h => h, fun _ h => h, fun _ _ => rfl⟩

theorem Kept.joinPending_tileArea (c : Clr) (l : RingLine) : (c.joinPending l).tileArea = c.tileArea := by
  unfold Clr.joinPending; split <;> rfl

theorem Kept.commitHead (s : State) (l : RingLine) : Kept s (s.commitHead l) := by
  have h0 : Kept s { s with rng := s.rng.commitLine l, clr := s.clr.joinPending l } :=
    Kept.of_own rfl rfl rfl rfl rfl rfl rfl (Kept.joinPending_tileArea _ _) rfl rfl
  have h : Kept s (State.raiseReady s { s with rng := s.rng.commitLine l, clr := s.clr.joinPending l }) :=
    h0.trans (Kept.raiseReady _ _)
  unfold State.commitHead
  simp only
  split
  · exact h.trans (Kept.raiseAll _ _)
  · exact h

theorem Kept.commitReadyIn : ∀ (k : Nat) (s : State), Kept s (State.commitReadyIn k s) := by
  intro k
  induction k with
  | zero => intro s; exact Kept.refl s
  | succ k ih =>
    intro s
    unfold State.commitReadyIn
    split
    · exact Kept.refl s
    · split
      · exact (Kept.commitHead s _).trans (ih _)
      · exact Kept.refl s

theorem Kept.commitReady (s : State) : Kept s s.commitReady := Kept.commitReadyIn _ s

theorem Kept.takeLine_tileArea (c : Clr) (n : Nat) : (c.takeLine n).1.tileArea = c.tileArea := by
  unfold Clr.takeLine; split <;> rfl

theorem Kept.closeNotice (s : State) (h : LineHeader) (o : RingOpen) : Kept s (s.closeNotice h o) := by
  unfold State.closeNotice
  refine Kept.trans ?_ (Kept.commitReady _)
  exact Kept.of_own rfl rfl rfl rfl rfl rfl rfl (Kept.takeLine_tileArea _ _) rfl rfl

theorem Kept.discardItem (s : State) (d : Discarding) (x : FifoItem) : Kept s (s.discardItem d x) := by
  unfold State.discardItem
  split
  · exact Kept.refl s
  · exact Kept.of_own rfl rfl rfl rfl rfl rfl rfl rfl rfl rfl
  · split
    · exact Kept.refl s
    · exact Kept.of_own rfl rfl rfl rfl rfl rfl rfl rfl rfl rfl

theorem Kept.openItem (s : State) (n : Nat) : Kept s (s.openItem n) := by
  have h0 : Kept s { s with rng := { s.rng with discarding := none } } :=
    Kept.of_own rfl rfl rfl rfl rfl rfl rfl rfl rfl rfl
  have h : Kept s ({ s with rng := { s.rng with discarding := none } }.admitBytes headerSize).1 :=
    h0.trans (Kept.admitBytes _ _)
  unfold State.openItem
  simp only
  split
  · exact h.trans (Kept.of_own rfl rfl rfl rfl rfl rfl rfl rfl rfl rfl)
  · exact h.trans (Kept.abandon _ _ _)

theorem Kept.pointItem (s : State) (n : Nat) (p : Point) : Kept s (s.pointItem n p) := by
  unfold State.pointItem
  split
  · exact Kept.refl s
  · simp only
    split
    · exact (Kept.admitBytes s _).trans (Kept.of_own rfl rfl rfl rfl rfl rfl rfl rfl rfl rfl)
    · exact (Kept.admitBytes s _).trans (Kept.abandon _ _ _)

theorem Kept.closeItem (s : State) (h : LineHeader) : Kept s (s.closeItem h) := by
  unfold State.closeItem
  split
  · exact Kept.refl s
  · exact Kept.closeNotice s h _

/-- Putting a suffix of the FIFO in its place: items are only taken. -/
theorem Kept.withFifo (s : State) (f : List FifoItem) (h : f <:+ s.lnb.fifo) : Kept s (s.withFifo f) :=
  ⟨rfl, rfl, rfl, rfl, rfl, rfl, rfl, rfl, rfl, rfl, rfl, h, rfl, fun _ => rfl, fun _ => rfl, fun _ => rfl,
    fun _ _ h => h, fun _ _ _ h => h, fun _ => frames_of_subset (fun _ h => h), fun _ _ h => h, fun _ h => h,
    fun _ h => h, fun _ _ => rfl⟩

theorem Kept.writeItem (s : State) : Kept s s.writeItem := by
  unfold State.writeItem
  split
  · exact Kept.refl s
  · rename_i x rest hf
    have h0 : Kept s (s.withFifo rest) := Kept.withFifo s rest (by rw [hf]; exact List.suffix_cons x rest)
    have h1 : Kept s { s.withFifo rest with rng := { (s.withFifo rest).rng with stallCounted := false } } :=
      h0.trans (Kept.of_own rfl rfl rfl rfl rfl rfl rfl rfl rfl rfl)
    simp only
    split
    · exact h1.trans (Kept.discardItem _ _ _)
    · split
      · exact h1.trans (Kept.openItem _ _)
      · exact h1.trans (Kept.pointItem _ _ _)
      · exact h1.trans (Kept.closeItem _ _)

theorem Kept.countStall (s : State) : Kept s s.countStall := by
  unfold State.countStall
  split
  · exact Kept.of_own rfl rfl rfl rfl rfl rfl rfl rfl rfl rfl
  · exact Kept.refl s

theorem Kept.grantWriter (s : State) (waiting : Bool) : Kept s (s.grantWriter waiting) := by
  unfold State.grantWriter
  refine Kept.trans ?_ (Kept.writeItem _)
  exact Kept.of_own rfl rfl rfl rfl rfl rfl rfl rfl rfl rfl

theorem Kept.grantRR (s : State) (x : RoundRobin) : Kept s (s.grantRR x) :=
  Kept.of_own rfl rfl rfl rfl rfl rfl rfl rfl rfl rfl

theorem Kept.grant (s : State) : Kept s s.grant := by
  unfold State.grant
  split
  · exact Kept.refl s
  · have key : ∀ b : Bool, Kept s (if b = true then s.grantWriter s.winner.isSome
        else match s.winner with
          | none => s
          | some x => s.grantRR x) := by
      intro b
      split
      · exact Kept.grantWriter s _
      · split
        · exact Kept.refl s
        · exact Kept.grantRR s _
    exact key _

/-- Everything the end of a step keeps. -/
theorem Kept.settle (s : State) : Kept s s.settle := by
  have h : ∀ u : State, Kept u (u.beginReads.chooseWork.countStall) := fun u =>
    ((Kept.beginReads u).trans (Kept.chooseWork _)).trans (Kept.countStall _)
  exact ((h s).trans (Kept.grant _)).trans (h _)

/-- A change of ring size keeps what the ring side keeps. -/
theorem Kept.resizeRing (s : State) : Kept s s.resizeRing := by
  have h0 : Kept s { s with rng := s.rng.emptied } := Kept.of_own rfl rfl rfl rfl rfl rfl rfl rfl rfl rfl
  exact (h0.trans (Kept.clrDiscard _)).trans (Kept.closeStreams _)

end Sys2Proof.Machine
end

