-- ==== Sys2Proof/Tests/Slice0.lean ====
section
/-! SUPPORT. Tests on single steps and small values, and for each statement with hypotheses a state and operands that
meet all of them (`test_meets_…`), clause by clause where its clauses split on a value. -/

namespace Sys2Proof.Tests

open Sys2Proof Sys2Proof.Machine

set_option maxRecDepth 20000
set_option Elab.async false

/-! ### Small states -/

/-- The next state an outcome answers. -/
def nextOf : Host.Outcome State Fault Refusal → Option State
  | .next s => some s
  | _ => none

/-- The machine after reset with every link UP. -/
def up : State := { State.reset with
  prt := State.reset.prt.map (fun q => { q with link := .up })
  eca := { State.reset.eca with link := .up } }

/-- `up` in a scan state, with the timers at length 0, which are due at once. -/
def scanning (st : ScanState) : State := { up with scn := { up.scn with
  state := st
  laser := decide (st = .running)
  armed := if st = .armed then some ⟨0, 0⟩ else none
  drain := if st = .draining then some ⟨0, 0⟩ else none } }

/-- A state with a command in flight on a tag. -/
def holding (s : State) (p : PortId) (tag : Tag) (j : Job) : State := s.hold p tag j

/-- No command is in flight. -/
theorem no_jobs : ∀ q x, (up.port q).tags.get x = none := by decide +kernel

def window : AngularWindow := ⟨0, 8388608, 0, 1⟩

def exposure (id : Nat) (st : ExposureState) : Exposure :=
  ⟨id, 0, some 0, some 0, some 0, some 0, some window, st, none, none, none, none⟩

def tile (k : Nat) (st : SlotState) (pins : Nat) : TileSlot :=
  ⟨k, st, 1, window, 1, 1, 0, pins, none, 3, 0⟩

def echoAt (r : BitVec 24) : Echo := ⟨r, 100, 5, false, false, false, false⟩

def pulse (id : BitVec 16) (t : Time) : PulseRec := ⟨id, t, .isOpen, [echoAt 6000], false, false⟩

def flags0 : PointFlags := ⟨false, false, false, false, false, false⟩

def point0 : Point := ⟨5, 0, [echoAt 6000], flags0, .absent, ⟨0, 0, 0⟩, 0⟩

def formed (m : Angle) : FormedPoint := ⟨{ point0 with m := m }, 7, 0, false⟩

def header (n : Nat) (c : LineColour) (pending : Nat) : LineHeader :=
  ⟨n, 1, 7, 0, 0, 0, 0, 1, 0, 0, ⟨false, false, false, false, false, false⟩, c, pending⟩

def line (n : Nat) (c : LineColour) (pending : Nat) : RingLine := ⟨header n c pending, header n c pending, [point0]⟩

def withLines (s : State) (ls : List RingLine) : State := { s with rng := { s.rng with committed := ls } }

/-- The stream of a port is OPEN in a mode, with a LINES READ or none. -/
def opened (s : State) (p : PortId) (m : StreamMode) (r : Option LinesRead) : State :=
  { s with str := s.str.set p ⟨true, m, 0, 0, false, r, [], none⟩ }

def withLog (s : State) (l : List Exposure) : State := { s with exs := { s.exs with log := l, idCounter := 3 } }

def withSlots (s : State) (l : List TileSlot) : State := { s with clr := { s.clr with slots := l } }

def transferring (s : State) (o : TransferOwner) : State := { s with rng := { s.rng with inProgress := some ⟨o, true⟩ } }

def passing (s : State) (x : Pass) : State := { transferring s .clr with clr := { s.clr with pass := some x } }

/-! ### WellFormed refuses -/

theorem test_ill_formed_data_out_empty : (Instr.dataOut 0 0 0 []).wellFormed = false := by decide
theorem test_ill_formed_data_out_long :
    (Instr.dataOut 0 0 0 (List.replicate 1025 0)).wellFormed = false := by decide +kernel
theorem test_well_formed_data_out_full :
    (Instr.dataOut 0 0 0 (List.replicate 1024 0)).wellFormed = true := by decide +kernel
theorem test_ill_formed_unknown_command : (Instr.unknownCommand 0 0 0 0x45).wellFormed = false := by decide
theorem test_ill_formed_transfer : (Instr.dramTransferEnd 0 1025).wellFormed = false := by decide
theorem test_ill_formed_elapsed : (Instr.strobeRise 18446744073709551616).wellFormed = false := by decide

/-! ### Worked values -/

/-- The check value the CRC of R191 gives for the nine bytes "123456789". -/
theorem test_crc : crc16 [0x31, 0x32, 0x33, 0x34, 0x35, 0x36, 0x37, 0x38, 0x39] = 0x29B1 := by decide +kernel

/-- A DONE reply on tag 2: kind 3, length 4, then the status bytes and the CRC. -/
theorem test_done_frame : (replyFrame 2 .done).bytes.take 8 = [3, 2, 4, 0, 0, 0, 0, 0] := by decide +kernel

/-- TILE RETIRE of slot 5 and exposure 258, from its command block. -/
theorem test_command_block : commandOfBlock 0 1 2 [0x31, 2, 5, 2, 1, 0, 0, 0, 0, 0, 0, 0, 0, 0, 0, 0]
    = .tileRetire 0 1 2 5 258 := by decide +kernel

/-- The three bytes after the CRC placed by a frame's length count one bad frame, and none count nothing. -/
theorem test_bytes_between_frames :
    (commandsOfBytes 0 1 ([1, 2, 0, 0, 0, 0] ++ [7, 7, 7])).drop 1 = [.badFrame 0 1] ∧
    (commandsOfBytes 0 1 [1, 2, 0, 0, 0, 0]).drop 1 = [] := by decide +kernel

theorem test_half_up : roundHalfUp (-3) 2 = -1 ∧ roundHalfUp 3 2 = 2 ∧ roundHalfUp (-5) 2 = -2 := by decide

/-- R30: a delay of 1,280 is NEAR, and one of 2^20 more gives the scale itself. -/
theorem test_range : rangeOf 1280 1280 6139750 = (0, true, false) ∧
    rangeOf 1049856 1280 6139750 = (6139750, false, false) ∧
    rangeOf 268435455 1280 6139750 = (16777215, false, true) := by decide

/-- A half-way instant between two forward edges one count apart. -/
theorem test_interpolation :
    (rawAngle .mirror [⟨0, 3, 0, .forward⟩, ⟨10, 4, 0, .forward⟩] 5).raw = 3 * 1024 + 512 := by decide

theorem test_scan_start : nextOf (exec (.scanStart 0 0 0) up) =
    some (({ up.held 0 0 .scanStart [acceptedFrame 0] with scn := { up.scn with
      state := .armed, session := 1, armed := some ⟨0, 1280000000000⟩,
      startReply := some ⟨0, 0⟩ } } : State).raiseAll evState) := by decide +kernel

/-! ### The hypotheses of the statements are met -/

theorem test_meets_StepTakesTheFront : ({ up with pending := [.tbWrap] } : State).pending = .tbWrap :: [] := rfl
theorem test_meets_IdleStepLetsTimePass : State.reset.pending = [] ∧ State.reset.tb.toNat + 1 < 2 ^ 64 := by decide
theorem test_meets_TimeMovesOnlyTheTimebase : State.reset.tb.toNat + (2 ^ 64 - 1) < 2 ^ 64 := by decide
theorem test_meets_TimeTakesTheWrap : 2 ^ 64 ≤ ({ up with tb := BitVec.ofNat 64 (2 ^ 64 - 1) } : State).tb.toNat + 1 ∧
    ({ up with eca := { up.eca with history := [pulse 1 5] } } : State).eca.history.filter (fun r => decide (r.state = .isOpen)) =
      [pulse 1 5] := by decide +kernel
/-- The wrap forms the point of an OPEN pulse, which opens a line. -/
theorem test_wrap_closes_a_pulse : ((nextOf (exec .tbWrap { up with eca := { up.eca with history := [pulse 1 5] } })).map
    (fun t => (t.eca.history, t.lnb.openLine.map LineHeader.firstEmission))) = some ([], some 5) := by decide +kernel
theorem test_meets_ResetState : State.reset.pending = [] := rfl

theorem test_meets_TagInFlightIsBusy : (Instr.identify 0 0 0).tagged = some (0, 0) ∧
    ((holding up 0 0 .linesRead).elapse 0).port 0 = { up.port 0 with tags := ⟨some .linesRead, none, none, none⟩ } ∧
    (((holding up 0 0 .linesRead).elapse 0).port 0).link = .up := by decide +kernel
theorem test_meets_RoleRefusal : (Instr.scanStart 0 3 0).tagged = some (3, 0) ∧ (up.elapse 0).ready 3 0 ∧
    (Instr.scanStart 0 3 0).allowed ((up.elapse 0).port 3).role = false := by decide +kernel
theorem test_meets_UnknownCodeRefused : (up.elapse 0).ready 3 3 := by decide +kernel
theorem test_meets_DownLinkTakesNothing : (Instr.identify 0 0 0).tagged = some (0, 0) ∧
    ((State.reset.elapse 0).port 0).link = .down := by decide +kernel
theorem test_meets_ClientLinks : ((State.reset.elapse 0).port 2).link = .down ∧ ((up.elapse 0).port 2).link = .up := by
  decide +kernel
theorem test_meets_PortResetCommand : ((up.elapse 0).port 0).link = .up := by decide +kernel

/-- Port 0 waits for the replies of a SCAN START and a SCAN STOP, and port 2 for that of a SCAN STOP. Port 1 loads slot 3,
retires slot 4 and reads its stream, whose table has an entry and whose unsure mark is set. -/
def ending : State := { up with
  prt := (up.prt.set 0 { up.port 0 with tags := ⟨some .scanStart, some .scanStop, none, none⟩ }).set 1
    { up.port 1 with tags := ⟨some (.tileCells 3), some (.tileRetire 4), some .linesRead, none⟩ }
  scn := { up.scn with startReply := some ⟨0, 0⟩, stopReplies := [⟨0, 1⟩, ⟨2, 1⟩] }
  clr := { up.clr with
    slots := [tile 3 .loading 0, { tile 4 .retiring 1 with owner := some ⟨1, 1⟩, exposure := 2 }]
    loader := [⟨3, [1]⟩, ⟨7, [2]⟩] }
  exs := { up.exs with log := [{ exposure 1 .loading with held := some 77, slot := some 3 }, exposure 2 .tiled] }
  str := up.str.set 1 ⟨true, .asis, 3, 1, true, some ⟨2, 3, .waiting⟩, [⟨1, .watching⟩], some 1⟩ }

theorem test_meets_PortEndUndone : (ending.elapse 0).prt = ending.prt ∧
    ((ending.elapse 0).port 0).tags.get 0 = some .scanStart ∧ (∀ x, ((ending.elapse 0).port 1).tags.get x ≠ some .scanStart) ∧
    ((ending.elapse 0).port 1).tags.get 0 = some (.tileCells 3) ∧
    (∀ y ∈ [(1 : Tag), 2, 3], ∀ k < 48, ((ending.elapse 0).port 1).tags.get y ≠ some (.tileCells k)) ∧
    (ending.elapse 0).clr.slot 3 = some (tile 3 .loading 0) ∧
    (ending.elapse 0).exs.log = [] ++ { exposure 1 .loading with held := some 77, slot := some 3 } :: [exposure 2 .tiled] ∧
    ((ending.elapse 0).port 1).tags.get 1 = some (.tileRetire 4) ∧ ((ending.elapse 0).stream 1).isOpen = true ∧
    ((transferring ending (.reader 1)).elapse 0).rng.inProgress = some ⟨.reader 1, true⟩ ∧
    ((transferring ending (.tileLoader 3)).elapse 0).rng.inProgress = some ⟨.tileLoader 3, true⟩ := by decide +kernel
/-- What the end of each of those ports leaves of its commands and its stream. -/
theorem test_port_ends : ((nextOf (exec (.portReset 0 0 0) ending)).map (fun t => (t.scn.startReply, t.scn.stopReplies))) =
      some (none, [⟨2, 1⟩]) ∧
    ((nextOf (exec (.clientLinkLoss 0 1) ending)).map (fun t => (t.clr.slots, t.clr.loader, t.exs.log, t.stream 1))) =
      some ([{ tile 4 .retiring 1 with exposure := 2 }], [⟨7, [2]⟩],
        [{ exposure 1 .exposed with deadline := some ⟨0, 77⟩ }, exposure 2 .tiled],
        ⟨false, .asis, 3, 1, false, none, [], none⟩) ∧
    (∀ x ∈ [(TransferOwner.reader 1, some ⟨TransferOwner.reader 1, false⟩), (.tileLoader 3, some ⟨.tileLoader 3, false⟩),
        (.ringWriter, some ⟨.ringWriter, true⟩)],
      ((nextOf (exec (.portReset 0 1 0) (transferring ending x.1))).map (fun t => t.rng.inProgress)) = some x.2) := by
  decide +kernel
theorem test_meets_RestartCommand : (ending.elapse 0).ready 0 2 ∧ (ending.elapse 0).isControl 0 ∧
    ([0, 1, 2, 3] : List Tag).filter (fun x => (((ending.elapse 0).port 0).tags.get x).isSome) = [0, 1] ∧
    ([0, 1, 2, 3] : List Tag).filter (fun x => (((ending.elapse 0).port 3).tags.get x).isSome) = [] ∧
    ((ending.elapse 0).stream 1).isOpen = true := by decide +kernel
theorem test_meets_TagAbortCommand : ((up.elapse 0).port 0).link = .up ∧ 4 ≤ (4 : Byte).toNat ∧
    (3 : Byte).toNat = (3 : Tag).val ∧ ((up.elapse 0).port 0).tags.get 3 = none ∧
    ∀ j ∈ [Job.scanSetup [1], .mirrorCalibrate [], .cameraSetup [2], .maskLoad 3 [], .stationLoad 64 [],
        .tileDescriptor ⟨1, 0, 1, 1⟩ [], .reading 2 [[7]]],
      (((holding up 0 3 j).elapse 0).port 0).link = .up ∧
      (((holding up 0 3 j).elapse 0).port 0).tags.get 3 = some j := by decide +kernel

/-- A load in flight on tag 0 of port 1, in slot 0, of exposure 1. -/
def loading : State := withLog (withSlots (holding up 1 0 (.tileCells 0)) [tile 0 .loading 0])
  [{ exposure 1 .loading with held := some 9, slot := some 0 }]

theorem test_meets_TagAbortUndoes : (0 : Byte).toNat = (0 : Tag).val ∧
    (((holding (scanning .armed) 0 0 .scanStart).elapse 0).port 0).tags.get 0 = some .scanStart ∧
    (((holding (scanning .draining) 0 0 .scanStop).elapse 0).port 0).tags.get 0 = some .scanStop ∧
    ((loading.elapse 0).port 1).link = .up ∧ ((loading.elapse 0).port 1).tags.get 0 = some (.tileCells 0) ∧
    (loading.elapse 0).clr.slot 0 = some (tile 0 .loading 0) ∧
    (((holding up 1 0 (.tileRetire 5)).elapse 0).port 1).tags.get 0 = some (.tileRetire 5) ∧
    (loading.elapse 0).exs.log = [] ++ { exposure 1 .loading with held := some 9, slot := some 0 } :: [] ∧
    (((holding (opened up 3 .asis (some ⟨0, 1, .waiting⟩)) 3 0 .linesRead).elapse 0).port 3).tags.get 0 =
      some .linesRead := by decide +kernel
theorem test_meets_BadFrameCounts : ((up.elapse 0).port 0).link = .up ∧ ([] : List Byte).length = 0 ∧
    1024 < (List.replicate 1025 (0 : Byte)).length := by decide +kernel
theorem test_meets_StrayDataFrame : ((up.elapse 0).port 0).link = .up ∧ ((up.elapse 0).port 0).tags.get 0 = none ∧
    1 ≤ ([0] : List Byte).length ∧ (List.replicate 1024 (0 : Byte)).length ≤ 1024 ∧
    (∀ j ∈ [Job.scanStart, .scanStop, .linesRead, .tileRetire 5, .reading 2 [[7]]],
      (((holding up 0 0 j).elapse 0).port 0).tags.get 0 = some j) ∧
    ((loading.elapse 0).port 1).tags.get 0 = some (.tileCells 0) ∧
    (loading.elapse 0).clr.slot 0 = some (tile 0 .loading 0) ∧
    (tile 0 .loading 0).w * (tile 0 .loading 0).h * 3 ≤ (tile 0 .loading 0).received := by decide +kernel

/-- Port 2 has sent a reply. The read on tag 1 has a frame waiting, and the one on tag 3 has none. -/
def sending : State := up.withPort 2 { up.port 2 with
  tags := ⟨none, some (.reading 1 [[7]]), none, some (.reading 2 [[8], [9]])⟩
  outgoing := [replyFrame 0 .done, ⟨1, .dataIn [5], false⟩] }

theorem test_meets_FrameTransmitted : ((sending.elapse 0).port 2).outgoing = replyFrame 0 .done :: [⟨1, .dataIn [5], false⟩] ∧
    ((sending.elapse 0).port 2).link = .up ∧ ((sending.elapse 0).port 2).tags.get 3 = some (.reading 2 ([8] :: [[9]])) ∧
    (∀ g ∈ [(⟨1, .dataIn [5], false⟩ : OutFrame)], g.tag ≠ 3) ∧
    (∀ y : Tag, y ≠ 3 → y ≠ 1 → ((sending.elapse 0).port 2).tags.get y = none) ∧
    (∀ x, ((up.elapse 0).port 2).tags.get x = none) := by decide +kernel
theorem test_meets_ImmediateReads : (up.elapse 0).ready 2 1 ∧ (0 : Byte).toNat ≤ 64 ∧ (64 : Byte).toNat ≤ 64 := by
  decide +kernel
/-- An item of a STATUS READ section, as the layout statements take it. -/
def item : Nat → Option (List Byte) → List Byte
  | n, none => List.replicate (n + 1) 0
  | _, some b => 1 :: b

/-- The hypotheses of StatusOfTheScan, StatusOfTheLines and StatusOfAPort. -/
theorem test_meets_StatusOfTheScan : (∀ n, item n none = List.replicate (n + 1) 0) ∧ (∀ n b, item n (some b) = 1 :: b) ∧
    ∀ b : Bool, boolByte b = if b then [1] else [0] := ⟨fun _ => rfl, fun _ _ => rfl, by decide⟩
theorem test_meets_ExposureRecord : (exposure 1 .exposed).window = some window ∧ (exposure 1 .exposed).deadline = none ∧
    (exposure 1 .exposed).held = none ∧ ({ exposure 1 .loading with held := some 9 } : Exposure).held = some 9 ∧
    ({ exposure 1 .exposed with deadline := some ⟨0, 9⟩ } : Exposure).deadline = some ⟨0, 9⟩ ∧
    ({ exposure 1 .triggered with window := none } : Exposure).window = none := by decide
theorem test_meets_CountersReadCommand : (up.elapse 0).ready 2 1 := by decide +kernel
theorem test_meets_CountTooLargeRefused : (up.elapse 0).ready 0 0 ∧ (up.elapse 0).isControl 0 ∧ 32 < (33 : Byte).toNat ∧
    (up.elapse 0).ready 1 0 ∧ (up.elapse 0).isImaging 1 ∧ 64 < (65 : Byte).toNat := by decide +kernel
theorem test_meets_RaiseAtOnePort : atnPowerOn.frozen = false ∧ EventSet.has atnPowerOn.pending 0 = false ∧
    EventSet.has ({ atnPowerOn with pending := 1 } : Atn).pending 0 = true ∧
    ({ atnPowerOn with frozen := true, held := 2 } : Atn).frozen = true ∧
    EventSet.has ({ atnPowerOn with frozen := true, held := 2 } : Atn).held 0 = false ∧
    EventSet.has ({ atnPowerOn with frozen := true, held := 2 } : Atn).held 1 = true := by decide
theorem test_meets_EventSetupCommand : (up.elapse 0).ready 0 0 ∧ 4095 < (4096 : BitVec 16).toNat ∧
    (4095 : BitVec 16).toNat ≤ 4095 ∧ 1 < (2 : Byte).toNat ∧ (1 : Byte).toNat ≤ 1 ∧ 11 < (12 : Byte).toNat ∧
    (11 : Byte).toNat = (11 : EventPos).val := by decide +kernel

/-- Port 0 with positions 3 and 5 pending, both enabled, in ROTATE mode. -/
def attending : State := { up with atn := up.atn.set 0 { atnPowerOn with
  pending := 0x28, enable := 0x28, double := 8, mode := .rotate } }

theorem test_meets_EventNextCommand : (attending.elapse 0).ready 0 0 ∧
    ((attending.elapse 0).atn.get 0).rank = [0, 1, 2] ++ 3 :: [4, 5, 6, 7, 8, 9, 10, 11] ∧
    (∀ y ∈ ([0, 1, 2] : List EventPos),
      (EventSet.has (attending.atn.get 0).pending y && EventSet.has (attending.atn.get 0).enable y) = false) ∧
    EventSet.has ((attending.elapse 0).atn.get 0).pending 3 = true ∧
    EventSet.has ((attending.elapse 0).atn.get 0).enable 3 = true ∧
    (∀ y ∈ ((up.elapse 0).atn.get 0).rank,
      (EventSet.has ((up.elapse 0).atn.get 0).pending y && EventSet.has ((up.elapse 0).atn.get 0).enable y) = false) := by
  decide +kernel
theorem test_meets_EventFreezeCommand : (up.elapse 0).ready 0 0 ∧ ((up.elapse 0).atn.get 0).frozen = false ∧
    ((({ up with atn := up.atn.set 0 { atnPowerOn with frozen := true, held := 2 } } : State).elapse 0).atn.get 0).frozen
      = true ∧ 1 < (2 : Byte).toNat := by decide +kernel
theorem test_meets_EdgeHistoryEntry :
    (1 : Time).toNat < (2 : Time).toNat ∧ ([] ++ [(⟨1, 0, 0, .forward⟩ : EdgeRec)]).length < 32 ∧
    (List.replicate 31 (⟨0, 0, 0, .forward⟩ : EdgeRec) ++ [(⟨1, 0, 0, .forward⟩ : EdgeRec)]).length = 32 := by decide

/-- The mirror aligned, one count short of a turn, with its index input inactive. -/
def turning : State := { up with ang := { up.ang with mirror := ⟨16383, 4, true, true, []⟩ } }

theorem test_meets_MirrorEdge : ((turning.elapse 0).ang.mirror.count + 1) % 16384 = 0 ∧
    (true && (turning.elapse 0).ang.mirror.armed) = true ∧
    (!false && (turning.elapse 0).ang.mirror.aligned && decide (0 = 0)) = true := by decide +kernel
theorem test_meets_AzimuthEdge : ((up.elapse 0).ang.azimuth.count + 65536 - 1) % 65536 = 65535 ∧
    (true && (up.elapse 0).ang.azimuth.armed) = true := by decide +kernel

/-- The azimuth aligned at this count. -/
def azimuthAt (n : Nat) : State := { up with ang := { up.ang with azimuth := ⟨n, 0, true, true, []⟩ } }

/-- A missed azimuth index, one at another count, and one where it belongs. -/
theorem test_azimuth_index_faults : ∀ x ∈ [(65535, false, 1), (7, true, 1), (65535, true, 0)],
    ((nextOf (exec (.quadratureEdge 0 .azimuth .forward x.2.1) (azimuthAt x.1))).map
      (fun t => t.ang.counters.azimuthIndexFaults)) = some x.2.2 := by decide +kernel
theorem test_meets_StallExpiry : ∀ st ∈ [ScanState.idle, .armed, .running, .draining, .fault],
    ((scanning st).elapse 512000000).ang.stall = some ⟨0, 512000000⟩ ∧
    512000000 ≤ (((scanning st).elapse 512000000).tb - 0).toNat ∧
    ((scanning st).elapse 512000000).scn.state = st := by decide +kernel
theorem test_meets_RevolutionEnds : (up.elapse 0).ang.mirror.armed = true ∧
    ((turning.elapse 0).ang.mirror.aligned && decide (((turning.elapse 0).ang.mirror.count + 1) % 16384 = 0)) = true ∧
    ((up.elapse 0).ang.mirror.aligned && decide (((up.elapse 0).ang.mirror.count + 1) % 16384 = 0)) = false ∧
    (up.elapse 0).ang.prevIndex = none ∧ (State.reset.elapse 0).eca.link = .down ∧
    ((scanning .armed).elapse 0).scn.inBand = 0 ∧
    (∀ st ∈ [ScanState.idle, .armed, .running, .draining, .fault], ((scanning st).elapse 0).scn.state = st) ∧
    (∀ dt ∈ [2562560000, 2562560001], (({ up with ang := { up.ang with prevIndex := some 0 } } : State).elapse dt).tb =
      BitVec.ofNat 64 dt) ∧
    (((2562560000 : Nat) : Int) - (10 * 256000000 : Nat)).natAbs ≤ up.scn.params.toleranceUs * 256000 ∧
    up.scn.params.toleranceUs * 256000 < (((2562560001 : Nat) : Int) - (10 * 256000000 : Nat)).natAbs := by decide +kernel
theorem test_meets_HeldAngles : (4 : Time).toNat < (5 : Time).toNat ∧ up.ang.mirror.history = [] := by decide

/-- Two mirror edges 100 ms apart. -/
def edges : List EdgeRec := [⟨10, 3, 4, .forward⟩, ⟨25600000010, 4, 4, .forward⟩]

theorem test_meets_AngleBetweenRecords : edges = [] ++ ⟨10, 3, 4, .forward⟩ :: ⟨25600000010, 4, 4, .forward⟩ :: [] ∧
    edges.Pairwise (fun a b => a.time.toNat < b.time.toNat) ∧ (10 : Time).toNat ≤ (10 : Time).toNat ∧
    (25600000009 : Time).toNat < (25600000010 : Time).toNat := by decide
theorem test_meets_AngleBeyondTheNewest : edges = [] ++ [⟨10, 3, 4, .forward⟩, ⟨25600000010, 4, 4, .forward⟩] ∧
    edges.Pairwise (fun a b => a.time.toNat < b.time.toNat) ∧
    (25600000010 : Time).toNat ≤ (25600000010 : Time).toNat ∧ 25600000010 - 10 ≤ 25600000000 ∧
    (51200000010 : Time).toNat - 25600000010 ≤ 25600000000 ∧ 25600000000 < (51200000011 : Time).toNat - 25600000010 ∧
    25600000000 < 25600000010 - 9 := by decide
theorem test_meets_MirrorAnswerGiven : (rawAngle .mirror edges 10).revolution = some 4 ∧
    (rawAngle .mirror [] 10).revolution = none ∧ (rawAngle .mirror edges 10).used = edges := by decide
theorem test_meets_RangingLink : (State.reset.elapse 0).eca.link = .down ∧ (up.elapse 0).eca.link = .up ∧
    ((scanning .running).elapse 0).scn.state = .running ∧ ((scanning .draining).elapse 0).scn.state = .draining ∧
    ((scanning .armed).elapse 0).scn.state = .armed := by decide +kernel

/-- A RUNNING scan whose last EMIT was pulse 65,535 at time 10. -/
def firing : State := { scanning .running with eca := { up.eca with
  history := [pulse 65535 10], prevEmit := some ⟨65535, 10⟩ } }

theorem test_meets_EmitNotLaterIsDiscarded : (firing.elapse 0).eca.link = .up ∧ (firing.elapse 0).scn.state = .running ∧
    (firing.elapse 0).eca.prevEmit = some ⟨65535, 10⟩ ∧ (10 : Time).toNat ≤ (10 : Time).toNat ∧
    ((scanning .running).elapse 0).eca.prevEmit = none ∧ PulseInv (firing.elapse 0) ∧
    (10 : Time).toNat < (11 : Time).toNat := by decide +kernel
theorem test_meets_EmitEntered : (firing.elapse 0).eca.link = .up ∧ (firing.elapse 0).scn.state = .running ∧
    (firing.elapse 0).eca.prevEmit = some ⟨65535, 10⟩ ∧ (10 : Time).toNat < (11 : Time).toNat ∧
    ((0 : BitVec 16) - 65535).toNat = 1 ∧ ((32767 : BitVec 16) - 65535).toNat = 32768 ∧
    ((scanning .running).elapse 0).eca.prevEmit = none := by decide +kernel
theorem test_meets_RepeatedId : (firing.elapse 0).eca.link = .up ∧ (firing.elapse 0).scn.state = .running ∧
    (firing.elapse 0).eca.prevEmit = some ⟨65535, 10⟩ ∧ (10 : Time).toNat < (11 : Time).toNat := by decide +kernel
theorem test_meets_IdBreak : (firing.elapse 0).eca.prevEmit = some ⟨65535, 10⟩ ∧ (10 : Time).toNat < (11 : Time).toNat ∧
    32768 < ((32768 : BitVec 16) - 65535).toNat ∧ (firing.elapse 0).eca.link = .up ∧
    (firing.elapse 0).scn.state = .running := by decide +kernel
theorem test_meets_EmitClosesPulses : ((0 : BitVec 16) - 65535).toNat = 1 ∧ 2 ≤ ((1 : BitVec 16) - 65535).toNat ∧
    ((32767 : BitVec 16) - 65535).toNat ≤ 32768 ∧ (firing.elapse 0).eca.prevEmit = some ⟨65535, 10⟩ ∧
    (10 : Time).toNat < (11 : Time).toNat ∧ ((scanning .running).elapse 0).eca.prevEmit = none := by decide +kernel
theorem test_meets_PointFormed : (pulse 1 2).echoes ≠ [] ∧ ({ pulse 1 2 with echoes := [] } : PulseRec).echoes = [] ∧
    up.scn.params.noReturnPolicy = .keep ∧
    ({ defaultScanParams with noReturnPolicy := .drop } : ScanParams).noReturnPolicy = .drop := by decide
theorem test_meets_EmitOutsideRunning : (up.elapse 0).eca.link = .up ∧ (up.elapse 0).scn.state ≠ .running := by
  decide +kernel
theorem test_meets_EchoKept : (firing.elapse 0).eca.link = .up ∧ (firing.elapse 0).scn.state = .running ∧
    (firing.elapse 0).scn.params.zone = 0 ∧ (firing.elapse 0).eca.history = [] ++ pulse 65535 10 :: [] ∧
    (pulse 65535 10).echoes.length < 4 ∧ (∀ y ∈ (pulse 65535 10).echoes, y.range.toNat < 6139750) ∧
    (firing.elapse 0).scn.params.rangeOffset < (1049856 : BitVec 28).toNat ∧
    6139750 = min ((2 * ((1049856 - 1280) * 6139750) + 1048576) / 2097152) 16777215 ∧
    (firing.elapse 0).scn.params.nearLimit ≤ 6139750 ∧ 6139750 ≤ (firing.elapse 0).scn.params.farLimit ∧
    (firing.elapse 0).scn.params.qualityPolicy ≠ .drop := by decide +kernel
/-- A RUNNING scan with four OPEN pulses, of which the one at distance 1 from the newest has four echoes. -/
def echoing (zone near far : Nat) (policy : QualityPolicy) : State := { scanning .running with
  scn := { (scanning .running).scn with params := { defaultScanParams with
    zone := zone, nearLimit := near, farLimit := far, qualityPolicy := policy } }
  eca := { up.eca with
    history := [⟨10, 100, .isOpen, [], false, false⟩, ⟨11, 200, .isOpen, [echoAt 150], false, false⟩,
      ⟨12, 300, .isOpen, [echoAt 1, echoAt 2, echoAt 3, echoAt 4], false, false⟩, ⟨13, 400, .isClosed, [], false, false⟩]
    prevEmit := some ⟨13, 400⟩ } }

theorem test_meets_EchoJudged : ∀ zone ∈ [1, 2, 3], ∀ e ∈ [(echoing zone 0 16777215 .drop).elapse 0],
    e.eca.link = .up ∧ e.scn.state = .running ∧ e.scn.params.zone = zone ∧
    (∃ x ∈ e.eca.history, x.id = 13 - BitVec.ofNat 16 e.scn.params.zone ∧ x.state = .isOpen ∧
      ∀ z ∈ e.eca.history, z.id = x.id → z = x) ∧
    (∃ y ∈ e.eca.history, y.id = 13 ∧ ∀ z ∈ e.eca.history, z.id = y.id → z = y) := by decide +kernel
/-- A delay of 0 is NEAR at range 0, below a near limit and at or below a last echo at 150, and the largest delay is FAR at
range 16,777,215, beyond a far limit and beyond the last of four echoes. -/
theorem test_meets_EchoJudged_clauses : min (0 + (400 - 200 : Time).toNat) 268435455 ≤ defaultScanParams.rangeOffset ∧
    0 < (echoing 2 1 9 .keep).scn.params.nearLimit ∧ (echoing 2 0 9 .drop).scn.params.nearLimit ≤ 0 ∧
    ([echoAt 150].getLast? = some (echoAt 150) ∧ 0 ≤ (echoAt 150).range.toNat) ∧
    16777215 < (2 * ((268435455 - defaultScanParams.rangeOffset) * defaultScanParams.rangeScale) + 1048576) / 2097152 ∧
    (echoing 1 0 9 .keep).scn.params.farLimit < 16777215 ∧
    ([echoAt 1, echoAt 2, echoAt 3, echoAt 4].getLast? = some (echoAt 4) ∧ (echoAt 4).range.toNat < 16777215 ∧
      4 ≤ [echoAt 1, echoAt 2, echoAt 3, echoAt 4].length) ∧ (30 : BitVec 16).toNat < defaultScanParams.weakThreshold := by
  decide +kernel
theorem test_meets_OrphanEcho : (up.elapse 0).eca.link = .up ∧ (up.elapse 0).scn.state = .idle ∧
    (∀ y ∈ (firing.elapse 0).eca.history, y.id ≠ 0) ∧
    ((echoing 0 0 9 .keep).elapse 0).eca.history = (echoing 0 0 9 .keep).eca.history.dropLast ++
      ⟨13, 400, .isClosed, [], false, false⟩ :: [] ∧
    (∀ y ∈ (echoing 0 0 9 .keep).eca.history.dropLast, y.id ≠ 13) := by decide +kernel
theorem test_meets_FaultRecordTaken : (up.elapse 0).eca.link = .up ∧ (up.elapse 0).scn.state ≠ .running ∧
    ((scanning .running).elapse 0).eca.link = .up ∧ ((scanning .running).elapse 0).scn.state = .running := by
  decide +kernel

/-- SCAN START, SCAN STOP, FAULT CLEAR and RESTART in each scan state, and the wrong role. -/
theorem test_meets_scan_commands : (∀ st ∈ [ScanState.idle, .armed, .running, .draining, .fault],
      ((scanning st).elapse 0).ready 0 0 ∧ ((scanning st).elapse 0).isControl 0 ∧ ((scanning st).elapse 0).scn.state = st) ∧
    (up.elapse 0).ready 3 0 ∧ ¬ (up.elapse 0).isControl 3 := by decide +kernel
theorem test_meets_ArmedTimeout : ((scanning .armed).elapse 0).scn.state = .armed ∧
    ((scanning .armed).elapse 0).scn.armed = some ⟨0, 0⟩ ∧ 0 ≤ (((scanning .armed).elapse 0).tb - 0).toNat := by
  decide +kernel
theorem test_meets_DrainExpiry : ((scanning .draining).elapse 0).scn.state = .draining ∧
    ((scanning .draining).elapse 0).scn.drain = some ⟨0, 0⟩ := by decide +kernel
theorem test_meets_DrainClosesPulses : ((scanning .draining).elapse 0).scn.state = .draining ∧
    ((scanning .draining).elapse 0).scn.drain = some ⟨0, 0⟩ ∧ 0 ≤ (((scanning .draining).elapse 0).tb - 0).toNat ∧
    (scanning .draining).lnb.openLine = none := by decide +kernel

/-- ARMED after one in-band revolution, with the next index due at its nominal period. -/
def arming : State := { scanning .armed with
  scn := { (scanning .armed).scn with inBand := 1, startReply := some ⟨0, 0⟩ }
  ang := { up.ang with prevIndex := some 0 } }

/-- `arming` with an aligned mirror one count short of its next turn. -/
def missing : State := { arming with ang := { arming.ang with mirror := { arming.ang.mirror with aligned := true, count := 16383 } } }

theorem test_meets_EntryToRunning : (arming.elapse 2562560000).scn.state = .armed ∧
    (arming.elapse 2562560000).scn.inBand = 1 ∧ (arming.elapse 2562560000).eca.link = .up ∧
    (arming.elapse 2562560000).ang.mirror.armed = true ∧ (arming.elapse 2562560000).ang.prevIndex = some 0 ∧
    ((((arming.elapse 2562560000).tb - 0).toNat : Int) - (10 * 256000000 : Nat)).natAbs ≤ 10 * 256000 ∧
    (missing.elapse 2562560000).ang.mirror.aligned = true ∧ (missing.elapse 2562560000).ang.mirror.count = 16383 ∧
    (missing.elapse 2562560000).scn = (arming.elapse 2562560000).scn := by decide +kernel
/-- A forward missed index ends the second in-band revolution. -/
theorem test_missed_index_enters_running : ((nextOf (exec (.quadratureEdge 2562560000 .mirror .forward false) missing)).map
    (fun t => (t.scn.state, t.ang.counters.mirrorIndexFaults))) = some (.running, 1) := by decide +kernel

/-- A RUNNING scan with a span. -/
def spanning (n : Nat) : State := { scanning .running with scn := { (scanning .running).scn with
  params := { defaultScanParams with azimuthSpan := n } } }

theorem test_meets_SpanEnd : ((spanning 256).elapse 0).scn.state = .running ∧
    ((spanning 256).elapse 0).scn.params.azimuthSpan ≠ 0 ∧
    ((spanning 256).elapse 0).scn.params.azimuthSpan ≤ (((spanning 256).elapse 0).ang.travel + 1).toInt.natAbs * 256 ∧
    (((spanning 257).elapse 0).ang.travel + 1).toInt.natAbs * 256 < ((spanning 257).elapse 0).scn.params.azimuthSpan ∧
    (((spanning 256).elapse 0).ang.travel - 1).toInt.natAbs * 256 = 256 ∧
    ((spanning 0).elapse 0).scn.params.azimuthSpan = 0 := by decide +kernel

theorem test_meets_GatheringBegins : (up.elapse 0).ready 0 0 ∧ (up.elapse 0).scn.state = .idle ∧
    (up.elapse 0).isControl 0 ∧ (up.elapse 0).ready 1 0 ∧ (up.elapse 0).isImaging 1 ∧
    (∀ q x, ((up.elapse 0).port q).tags.get x = none) ∧ (32 : Byte).toNat ≤ 32 ∧ (0 : Byte).toNat ≤ 64 := by
  decide +kernel
theorem test_meets_SetupOutsideIdleRefused : ((scanning .fault).elapse 0).ready 0 0 ∧
    ((scanning .fault).elapse 0).scn.state ≠ .idle ∧ ((scanning .fault).elapse 0).isControl 0 ∧
    ((scanning .fault).elapse 0).ready 1 0 ∧ ((scanning .fault).elapse 0).isImaging 1 := by decide +kernel
theorem test_meets_EmptyLoads : (up.elapse 0).ready 0 0 ∧ (up.elapse 0).isControl 0 ∧ (up.elapse 0).ready 1 0 ∧
    (up.elapse 0).isImaging 1 ∧ (up.elapse 0).scn.state = .idle ∧ (∀ q x, ((up.elapse 0).port q).tags.get x = none) := by
  decide +kernel
theorem test_meets_LikeCommandBusy : ∀ j ∈ [Job.scanSetup [], .mirrorCalibrate [], .cameraSetup [], .maskLoad 32 [],
      .stationLoad 64 []],
    (((holding up 3 2 j).elapse 0).port 3).tags.get 2 = some j ∧ ((holding up 3 2 j).elapse 0).scn.state = .idle ∧
    ((holding up 3 2 j).elapse 0).ready 0 0 ∧ ((holding up 3 2 j).elapse 0).isControl 0 ∧
    ((holding up 3 2 j).elapse 0).ready 1 0 ∧ ((holding up 3 2 j).elapse 0).isImaging 1 := by decide +kernel

/-! ### Data blocks -/

/-- A SCAN SETUP block with the defaults of R44 and this zone. -/
def scanBlock (zone : Byte) : List Byte :=
  [zone, 10] ++ leBytes 2 10 ++ leBytes 4 2000 ++ leBytes 2 5000 ++ leBytes 3 0 ++ leBytes 3 16777215 ++ leBytes 3 0
    ++ leBytes 4 6139750 ++ leBytes 2 1280 ++ leBytes 3 5000 ++ leBytes 3 16777215 ++ leBytes 2 64 ++ [0, 0]
    ++ leBytes 4 0 ++ leBytes 2 20 ++ leBytes 3 1000000 ++ leBytes 4 0 ++ [16] ++ zeros 15

/-- R44's defaults are what a block that spells them gives. -/
theorem test_scan_block : scanParamsOf (scanBlock 0) = defaultScanParams := by decide +kernel

theorem test_meets_ScanSetupData : (((holding up 0 1 (.scanSetup [])).elapse 0).port 0).tags.get 1 = some (.scanSetup []) ∧
    (((holding up 0 1 (.scanSetup [])).elapse 0).port 0).link = .up ∧
    (([] : List Byte) ++ [1]).length < 64 ∧ 64 ≤ (([] : List Byte) ++ scanBlock 3).length ∧
    (scanBlock 3).length ≤ 1024 ∧ (up.elapse 0).scn.state = .idle ∧
    firstFailure (scanTests (([] ++ scanBlock 3).take 64)) = none ∧
    (scanParamsOf (([] ++ scanBlock 3).take 64)).ringSize = (up.elapse 0).scn.params.ringSize ∧
    firstFailure (scanTests (([] ++ scanBlock 4).take 64)) = some 1 ∧
    ((holding (scanning .armed) 0 1 (.scanSetup [])).elapse 0).scn.state ≠ .idle := by decide +kernel
/-- The readings of a block's bytes that the statements on blocks speak of. -/
theorem test_meets_blocks (b : List Byte) : ∃ u8 u16 u24 u32 : Nat → Nat, (∀ i, u8 i = (b.getD i 0).toNat) ∧
    (∀ i, u16 i = u8 i + 256 * u8 (i + 1)) ∧ (∀ i, u24 i = u8 i + 256 * u8 (i + 1) + 65536 * u8 (i + 2)) ∧
    (∀ i, u32 i = u8 i + 256 * u8 (i + 1) + 65536 * u8 (i + 2) + 16777216 * u8 (i + 3)) :=
  ⟨_, _, _, _, fun _ => rfl, fun _ => rfl, fun _ => rfl, fun _ => rfl⟩
/-- A block with some bytes changed. -/
def changed (b : List Byte) (x : List (Nat × Byte)) : List Byte := x.foldl (fun b y => b.set y.1 y.2) b
/-- For each field with a range, a block whose value out of range is charged to that field. -/
theorem test_meets_ScanSetupBlock : firstFailure (scanTests (scanBlock 0)) = none ∧
    ∀ x ∈ [([(0, 4)], 1), ([(1, 101)], 2), ([(2, 0)], 3), ([(6, 2)], 4), ([(9, 255)], 5), ([(13, 0), (14, 0), (15, 0)], 7),
        ([(21, 0)], 9), ([(28, 0), (29, 0), (30, 0)], 12), ([(33, 3)], 14), ([(34, 2)], 15), ([(39, 1)], 17),
        ([(41, 0), (42, 0), (43, 0)], 18), ([(48, 25)], 20)],
      firstFailure (scanTests (changed (scanBlock 0) x.1)) = some x.2 := by decide +kernel
theorem test_meets_StillGathering : (∀ j ∈ [Job.scanSetup [], .mirrorCalibrate [], .cameraSetup [], .maskLoad 1 [],
      .stationLoad 2 [], .tileDescriptor ⟨1, 0, 1, 1⟩ []],
    (((holding up 1 0 j).elapse 0).port 1).tags.get 0 = some j ∧ (((holding up 1 0 j).elapse 0).port 1).link = .up) ∧
    ([] ++ zeros 63).length < 64 ∧ ([] ++ zeros 511).length < 512 ∧ ([] ++ zeros 31).length < 32 ∧
    ([] ++ zeros 15).length < 1 * 16 ∧ ([] ++ zeros 7).length < 2 * 4 ∧ ([] ++ zeros 11).length < 12 := by decide +kernel
theorem test_meets_LastByteOutsideIdle : (∀ j ∈ [Job.scanSetup [], .mirrorCalibrate [], .cameraSetup [], .maskLoad 1 [],
      .stationLoad 2 []],
    (((holding (scanning .armed) 1 0 j).elapse 0).port 1).tags.get 0 = some j ∧
    ((holding (scanning .armed) 1 0 j).elapse 0).scn.state ≠ .idle) ∧
    64 ≤ ([] ++ zeros 64).length ∧ 512 ≤ ([] ++ zeros 512).length ∧ 32 ≤ ([] ++ zeros 32).length ∧
    1 * 16 ≤ ([] ++ zeros 16).length ∧ 2 * 4 ≤ ([] ++ zeros 8).length := by decide +kernel
theorem test_meets_RingSizeTaken : firstFailure (scanTests (([] ++ (scanBlock 0).set 48 1).take 64)) = none ∧
    (scanParamsOf (([] ++ (scanBlock 0).set 48 1).take 64)).ringSize ≠ (up.elapse 0).scn.params.ringSize ∧
    64 ≤ (([] : List Byte) ++ (scanBlock 0).set 48 1).length := by decide +kernel
theorem test_meets_RingSizeChange : ({ up with rng := { up.rng with openLine := some ⟨4, []⟩ } } : State).rng.openLine =
      some ⟨4, []⟩ ∧ up.rng.openLine = none ∧ up.clr.pass = none ∧
    (passing up ⟨1, .sweep, 0, 0⟩).clr.pass ≠ none ∧
    ((opened up 3 .asis (some ⟨2, 1, .waiting⟩)).stream 3).read = some ⟨2, 1, .waiting⟩ := by decide +kernel
theorem test_meets_CalibrationData :
    (((holding up 0 1 (.mirrorCalibrate [])).elapse 0).port 0).tags.get 1 = some (.mirrorCalibrate []) ∧
    (((holding up 0 1 (.mirrorCalibrate [])).elapse 0).port 0).link = .up ∧
    512 ≤ (([] : List Byte) ++ List.replicate 512 1).length ∧ (up.elapse 0).scn.state = .idle := by decide +kernel

/-- A CAMERA SETUP block with the defaults of R102 and this mode. -/
def cameraBlock (mode : Byte) : List Byte :=
  [mode] ++ leBytes 4 4096 ++ leBytes 4 0 ++ leBytes 4 1048576 ++ leBytes 3 0 ++ leBytes 3 16777215 ++ leBytes 4 50000
    ++ leBytes 2 10 ++ zeros 7

theorem test_camera_block : cameraSetupOf (cameraBlock 0) = defaultCameraSetup := by decide +kernel

theorem test_meets_CameraSetupData :
    (((holding up 1 1 (.cameraSetup [])).elapse 0).port 1).tags.get 1 = some (.cameraSetup []) ∧
    (((holding up 1 1 (.cameraSetup [])).elapse 0).port 1).link = .up ∧ (up.elapse 0).scn.state = .idle ∧
    32 ≤ (([] : List Byte) ++ cameraBlock 2).length ∧
    firstFailure (cameraTests ((cameraBlock 2).take 32)) = none ∧
    firstFailure (cameraTests ((cameraBlock 3).take 32)) = some 1 := by decide +kernel

theorem test_meets_CameraSetupBlock : firstFailure (cameraTests (cameraBlock 0)) = none ∧
    ∀ x ∈ [([(0, 3)], 1), ([(3, 1)], 2), ([(8, 128)], 3), ([(12, 1)], 4), ([(16, 0), (17, 0), (18, 0)], 6), ([(22, 1)], 7),
        ([(24, 3)], 8)],
      firstFailure (cameraTests (changed (cameraBlock 0) x.1)) = some x.2 := by decide +kernel

/-- One mask entry of the whole turn with this action, and a pair of stations. -/
def maskBlock (action : Byte) : List Byte :=
  leBytes 4 0 ++ leBytes 4 16777216 ++ leBytes 3 0 ++ leBytes 3 9 ++ [action, 0]

theorem test_meets_ListData : (up.elapse 0).scn.state = .idle ∧
    (((holding up 0 1 (.maskLoad 1 [])).elapse 0).port 0).tags.get 1 = some (.maskLoad 1 []) ∧
    1 * 16 ≤ (([] : List Byte) ++ maskBlock 1).length ∧ (maskBlock 1).length ≤ 1024 ∧
    maskFailure 0 none (recordsOf 16 1 (([] ++ maskBlock 1).take 16)) = none ∧
    maskFailure 0 none (recordsOf 16 1 (([] ++ maskBlock 2).take 16)) = some (0, 4) ∧
    (((holding up 1 1 (.stationLoad 2 [])).elapse 0).port 1).tags.get 1 = some (.stationLoad 2 []) ∧
    stationFailure 0 none ((recordsOf 4 2 (leBytes 4 0 ++ leBytes 4 256)).map stationOf) = none ∧
    stationFailure 0 none ((recordsOf 4 2 (leBytes 4 256 ++ leBytes 4 256)).map stationOf) = some 1 := by decide +kernel

theorem test_meets_ListBlocks : maskFailure 0 none (recordsOf 16 2 (maskBlock 0 ++ (maskBlock 1).set 0 1)) = none ∧
    maskFailure 0 none (recordsOf 16 2 (maskBlock 0 ++ maskBlock 1)) = some (1, 1) ∧
    maskFailure 0 none (recordsOf 16 1 ((maskBlock 0).set 4 1)) = some (0, 2) ∧
    maskFailure 0 none (recordsOf 16 1 ((maskBlock 0).set 8 9)) = some (0, 3) ∧
    stationFailure 0 none ((recordsOf 4 1 (leBytes 4 2147483648)).map stationOf) = some 0 := by decide +kernel

/-! ### Lines, the ring, colour -/

/-- LNB with a line open, an abandonment report for it, and a spent revolution. -/
def lining (o : Option LineHeader) (spent : Option (BitVec 32)) (reports : List Nat) : State :=
  { up with lnb := { up.lnb with openLine := o, spent := spent, reports := reports, lineCounter := 4 } }

theorem test_meets_AbandonmentReportTaken :
    ((lining (some (header 4 .settled 0)) none [4]).elapse 0).lnb.reports = 4 :: [] ∧
    ((lining (some (header 4 .settled 0)) none [4]).elapse 0).lnb.openLine = some (header 4 .settled 0) ∧
    (header 4 .settled 0).lineNumber = 4 ∧
    ((lining none none [4]).elapse 0).lnb.openLine = none := by decide +kernel

/-- A line window from 10 to 20, with a DROP entry over the whole turn or none. -/
def windowed (o : Option LineHeader) (spent : Option (BitVec 32)) (mask : List MaskEntry) : State :=
  { lining o spent [] with
    scn := { up.scn with params := { defaultScanParams with ws := 10, we := 20 } }
    lnb := { (lining o spent []).lnb with mask := mask } }

theorem test_meets_PointsOutsideTheLine : (windowed (some (header 4 .settled 0)) none []).lnb.openLine =
      some (header 4 .settled 0) ∧ (header 4 .settled 0).revolution = (formed 20).revolution ∧
    (∀ h, (windowed (some (header 4 .settled 0)) none []).lnb.openLine = some h → h.revolution = (formed 10).revolution) ∧
    (windowed none none []).lnb.openLine = none ∧
    (windowed none none []).scn.params.we ≤ (formed 20).point.m.toNat ∧
    (formed 9).point.m.toNat < (windowed none none []).scn.params.ws ∧
    (windowed none none []).scn.params.ws ≤ (formed 10).point.m.toNat ∧
    (formed 19).point.m.toNat < (windowed none none []).scn.params.we ∧
    (windowed none (some 7) []).lnb.spent = some (formed 10).revolution ∧
    ∃ m ∈ (windowed none none [⟨0, 16777216, 0, 16777215, .drop⟩]).lnb.mask, m.action = .drop ∧
      ((formed 10).point.a - BitVec.ofNat 24 m.azStart).toNat < m.azWidth ∧ m.mLow ≤ (formed 10).point.m.toNat ∧
      (formed 10).point.m.toNat < m.mHigh := by decide +kernel
/-- A point inside a DROP entry leaves the open line as it was. -/
theorem test_drop_entry_with_a_line_open :
    ((windowed (some (header 4 .settled 0)) none [⟨0, 16777216, 0, 16777215, .drop⟩]).takePoint (formed 10)).lnb.openLine =
      some (header 4 .settled 0) ∧
    ((windowed (some (header 4 .settled 0)) none [⟨0, 16777216, 0, 16777215, .drop⟩]).takePoint (formed 10)).lnb.counters.maskDrops =
      1 := by decide +kernel

/-- A mask that tags the azimuths from 0 to 49 and drops those from 100 to 149, below mirror angle 19. -/
def masks : List MaskEntry := [⟨0, 50, 0, 19, .tag⟩, ⟨100, 50, 0, 19, .drop⟩]

theorem test_meets_NewRevolution : (windowed (some (header 4 .settled 0)) none []).lnb.openLine =
    some (header 4 .settled 0) ∧ (header 4 .settled 0).revolution ≠ ({ formed 10 with revolution := 8 } : FormedPoint).revolution :=
  by decide
theorem test_meets_PointOpensLine : (windowed none none masks).lnb.openLine = none ∧
    (windowed none none masks).scn.params.ws ≤ (formed 10).point.m.toNat ∧
    (formed 19).point.m.toNat < (windowed none none masks).scn.params.we ∧
    (windowed none none masks).lnb.spent ≠ some (formed 10).revolution ∧
    (∀ m ∈ (windowed none none masks).lnb.mask, m.action = .drop →
      ¬ ((formed 10).point.a - BitVec.ofNat 24 m.azStart).toNat < m.azWidth) ∧
    (∃ m ∈ (windowed none none masks).lnb.mask, m.action = .tag ∧
      ((formed 18).point.a - BitVec.ofNat 24 m.azStart).toNat < m.azWidth ∧ m.mLow ≤ (formed 18).point.m.toNat ∧
      (formed 18).point.m.toNat < m.mHigh) ∧
    (windowed none none masks).lnb.lineCounter < 4294967295 ∧ fifoNotices (windowed none none masks).lnb.fifo ≤ 62 ∧
    fifoPoints (windowed none none masks).lnb.fifo < 512 := by decide +kernel
theorem test_meets_LineOpens : (windowed none none masks).lnb.lineCounter ≠ 4294967295 ∧
    62 < fifoNotices (List.replicate 63 (.openNotice 1)) ∧ fifoNotices (List.replicate 62 (.openNotice 1)) ≤ 62 ∧
    ({ up with lnb := { up.lnb with lineCounter := 4294967295 } } : State).lnb.lineCounter = 4294967295 := by
  decide +kernel
theorem test_meets_PointAccepted : (windowed (some (header 4 .settled 0)) none masks).lnb.openLine =
      some (header 4 .settled 0) ∧ (header 4 .settled 0).revolution = (formed 10).revolution ∧
    (windowed (some (header 4 .settled 0)) none masks).scn.params.ws ≤ (formed 10).point.m.toNat ∧
    fifoPoints (List.replicate 511 (.point 4 point0)) < 512 ∧ 512 ≤ fifoPoints (List.replicate 512 (.point 4 point0)) ∧
    (header 4 .settled 0).pointCount + (header 4 .settled 0).fifoDropped + 1 < 16384 ∧
    (let h : LineHeader := { header 4 .settled 0 with pointCount := 16380, fifoDropped := 3 }
     h.pointCount + h.fifoDropped + 1 = 16384) := by decide +kernel
theorem test_meets_Admission : up.rng.occupancy + 1073741824 ≤ up.scn.params.ringSize * 67108864 ∧
    up.scn.params.ringSize * 67108864 < up.rng.occupancy + 1073741825 ∧ up.rng.committed = [] ∧
    (withLines (up.modStr 2 (fun st => { st with isOpen := true, essential := true })) [line 1 .settled 0]).rng.committed =
      line 1 .settled 0 :: [] ∧
    ((up.modStr 2 (fun st => { st with isOpen := true, essential := true })).stream 2).releasePoint < 1 := by decide +kernel
theorem test_meets_ReclaimForAdmission : up.scn.params.ringSize * 67108864 < up.rng.occupancy + 1073741825 ∧
    (withLines up [line 1 .settled 0]).rng.committed = line 1 .settled 0 :: [] ∧
    (∀ p, ((withLines up [line 1 .settled 0]).stream p).isOpen = false) ∧
    ((up.modStr 2 (fun st => { st with isOpen := true, essential := true, releasePoint := 1 })).stream 2).releasePoint = 1 := by
  decide +kernel

/-- An item of the Point FIFO, and a discarding line or none. -/
def writing (x : FifoItem) (d : Option Discarding) : State :=
  { up with lnb := { up.lnb with fifo := [x] }, rng := { up.rng with discarding := d, openLine := some ⟨4, []⟩ } }

theorem test_meets_DiscardedItems :
    ∀ x ∈ [FifoItem.openNotice 4, .closeNotice 4 (header 4 .settled 0), .point 4 point0],
      ∀ d ∈ [(⟨4, .abandoned⟩ : Discarding), ⟨4, .resized⟩],
        (writing x (some d)).lnb.fifo = x :: [] ∧ (writing x (some d)).rng.discarding = some d ∧ d.number = x.line := by
  decide +kernel
theorem test_meets_WrittenItems : (writing (.openNotice 4) (some ⟨3, .resized⟩)).lnb.fifo = .openNotice 4 :: [] ∧
    (3 : Nat) ≠ (FifoItem.openNotice 4).line ∧ (up.admitBytes 48).2 = true ∧
    (({ up with scn := { up.scn with params := { up.scn.params with ringSize := 0 } } } : State).admitBytes 20).2 = false ∧
    (writing (.point 4 point0) none).rng.openLine = some ⟨4, []⟩ ∧ up.clr.colourQueue.length < 16 ∧
    16 ≤ (List.range 16).length := by decide +kernel

/-- A closed-line list that holds line 4 at its head, with one line lost before it. -/
def closing (st : ClosedState) : State := { up with rng := { up.rng with
  closed := [⟨line 4 .pending 1, st⟩], lostCount := 1, lostBoundary := some 3 } }

theorem test_meets_LinesCommit : (up.rng.closed = []) ∧ (closing .colouring).rng.closed = ⟨line 4 .pending 1, .colouring⟩ :: [] ∧
    (closing .coloured).rng.closed = ⟨line 4 .pending 1, .coloured⟩ :: [] ∧ ClosedState.coloured ≠ .colouring ∧
    0 < (closing .coloured).rng.lostCount ∧ (closing .coloured).rng.lostBoundary = some 3 ∧
    3 < (line 4 .pending 1).header.lineNumber := by decide +kernel

/-! ### The arbiter -/

theorem test_meets_ArbiterModeFollows : 384 < fifoPoints (List.replicate 385 (.point 1 point0)) ∧
    fifoPoints (List.replicate 127 (.point 1 point0)) < 128 ∧ 128 ≤ fifoPoints (List.replicate 128 (.point 1 point0)) ∧
    fifoPoints (List.replicate 384 (.point 1 point0)) ≤ 384 := by decide +kernel
theorem test_meets_DramRequests : 32 ≤ (List.replicate 32 (⟨line 4 .settled 0, .colouring⟩ : ClosedLine)).length ∧
    (writing (.closeNotice 4 (header 4 .settled 0)) none).lnb.fifo = .closeNotice 4 (header 4 .settled 0) :: [] ∧
    (writing (.closeNotice 4 (header 4 .settled 0)) none).rng.discarding = none ∧ up.rng.stallCounted = false := by
  decide +kernel
theorem test_meets_DramGrants : (passing up ⟨1, .sweep, 0, 0⟩).rng.inProgress = some ⟨.clr, true⟩ ∧
    up.rng.inProgress = none ∧ up.writerRequests = false ∧ (writing (.openNotice 4) none).writerRequests = true ∧
    (∀ x ∈ [RoundRobin.clr, .tileLoader, .reader 0, .reader 1, .reader 2, .reader 3], up.requests x = false) ∧
    ({ up with clr := { up.clr with loader := [⟨2, [1]⟩] } } : State).requests .tileLoader = true ∧
    [RoundRobin.clr, .tileLoader, .reader 0, .reader 1, .reader 2, .reader 3] =
      [.clr, .tileLoader, .reader 0, .reader 1, .reader 2] ++ up.rng.lastRR :: [] ∧
    [] ++ [RoundRobin.clr, .tileLoader, .reader 0, .reader 1, .reader 2] ++ [up.rng.lastRR] =
      [.clr] ++ .tileLoader :: [.reader 0, .reader 1, .reader 2, .reader 3] := by decide +kernel

/-- A load with cell bytes waiting, its transfer in progress. -/
def loaderBusy (bytes : List Byte) (owner : Option PortTag) : State :=
  { transferring (withSlots up [{ tile 2 .loading 0 with owner := owner }]) (.tileLoader 2) with
    clr := { up.clr with slots := [{ tile 2 .loading 0 with owner := owner }], loader := [⟨2, bytes⟩] } }

theorem test_meets_TileLoaderTransferEnds : ((loaderBusy [1, 2] none).elapse 0).rng.inProgress =
      some ⟨.tileLoader 2, true⟩ ∧
    ((loaderBusy [1, 2] none).elapse 0).clr.loader = ⟨2, [1, 2]⟩ :: [] ∧
    ((loaderBusy [1, 2] none).elapse 0).clr.slot 2 = some (tile 2 .loading 0) ∧
    Memory.wf ((loaderBusy [1, 2] none).elapse 0).clr.tileArea ∧
    2 = max 1 (min (min 1025 1024) ([1, 2] : List Byte).length) ∧ 1 = max 1 (min (min 0 1024) ([1, 2] : List Byte).length) := by decide +kernel
theorem test_meets_TileLoadCompletes : ((loaderBusy [1, 2, 3] (some ⟨1, 0⟩)).elapse 0).rng.inProgress =
      some ⟨.tileLoader 2, true⟩ ∧
    ((loaderBusy [1, 2, 3] (some ⟨1, 0⟩)).elapse 0).clr.loader = ⟨2, [1, 2, 3]⟩ :: [] ∧
    ((loaderBusy [1, 2, 3] (some ⟨1, 0⟩)).elapse 0).clr.slot 2 = some { tile 2 .loading 0 with owner := some ⟨1, 0⟩ } ∧
    (tile 2 .loading 0).written + ([1, 2, 3] : List Byte).length = (tile 2 .loading 0).w * (tile 2 .loading 0).h * 3 ∧
    Memory.wf ((loaderBusy [1, 2, 3] (some ⟨1, 0⟩)).elapse 0).clr.tileArea ∧
    ((loaderBusy [1, 2, 3] (some ⟨1, 0⟩)).elapse 0).clr.backfillQueue.length < 64 := by decide +kernel
theorem test_meets_OtherTransfersLeaveTileArea : ((transferring up .ringWriter).elapse 0).rng.inProgress =
    some ⟨.ringWriter, true⟩ ∧ ∀ slot, TransferOwner.ringWriter ≠ .tileLoader slot :=
  ⟨by decide +kernel, fun _ => nofun⟩
theorem test_meets_TransferWithoutWork : ((transferring up .ringWriter).elapse 0).rng.inProgress = some ⟨.ringWriter, true⟩ ∧
    (({ up with rng := { up.rng with inProgress := some ⟨.clr, false⟩ } } : State).elapse 0).rng.inProgress =
      some ⟨.clr, false⟩ ∧ (up.elapse 0).rng.inProgress = none := by decide +kernel

/-- Port 3 reads line 1, with `sent` bytes handed. -/
def delivering (sent remaining : Nat) : State :=
  opened (withLines up [line 1 .pending 1]) 3 .asis (some ⟨2, remaining, .delivering 1 true sent⟩)

theorem test_meets_ReaderTransferEnds : ((transferring (delivering 48 1) (.reader 3)).elapse 0).rng.inProgress =
      some ⟨.reader 3, true⟩ ∧
    (((transferring (delivering 48 1) (.reader 3)).elapse 0).stream 3).read = some ⟨2, 1, .delivering 1 true 48⟩ ∧
    ((transferring (delivering 48 1) (.reader 3)).elapse 0).rng.lookup 1 = some (line 1 .pending 1) ∧
    (((transferring (delivering 48 1) (.reader 3)).elapse 0).port 3).link = .up := by decide +kernel
theorem test_meets_DeliveryCompletes : (((delivering 68 1).elapse 0).port 3).link = .up ∧
    (((delivering 68 1).elapse 0).stream 3).read = some ⟨2, 1, .delivering 1 true (line 1 .pending 1).size⟩ ∧
    ((delivering 68 1).elapse 0).rng.lookup 1 = some (line 1 .pending 1) ∧
    (((delivering 68 1).elapse 0).port 3).outgoing = [] ∧
    (((delivering 68 1).elapse 0).stream 3).table.length < 64 ∧
    64 ≤ ((List.range 64).map (fun n => (⟨n, .watching⟩ : CheckEntry))).length ∧
    (List.range 64).map (fun n => (⟨n, .watching⟩ : CheckEntry)) =
      [] ++ ⟨0, .watching⟩ :: ((List.range 64).map (fun n => (⟨n, .watching⟩ : CheckEntry))).tail := by decide +kernel
theorem test_meets_DeliveryGoesOn : (none : Option RingLine) =
      deliverable ((delivering 68 1).elapse 0).rng { ((delivering 68 1).elapse 0).stream 3 with readPoint := 1 } ∧
    some (line 2 .pending 1) = deliverable (withLines (delivering 68 2) [line 1 .pending 1, line 2 .pending 1]).rng
      { (delivering 68 2).stream 3 with readPoint := 1 } ∧
    (withLines (delivering 68 2) [line 1 .pending 1, line 2 .pending 1]).rng.lookup 2 = some (line 2 .pending 1) ∧
    ((delivering 68 2).elapse 0).clr.pass = none ∧ 2 ≤ 2 := by decide +kernel
theorem test_meets_ReclaimOfALine : (delivering 48 1).rng.committed = line 1 .pending 1 :: [] ∧
    ((delivering 48 1).stream 3).isOpen = true ∧ ((delivering 48 1).stream 3).essential = false ∧
    ((delivering 48 1).stream 3).releasePoint < 1 ∧
    ((delivering 48 1).stream 3).read = some ⟨2, 1, .delivering 1 true 48⟩ ∧
    (∀ p, p ≠ 3 → ((delivering 48 1).stream p).isOpen = false) ∧ (delivering 48 1).clr.pass = none := by decide +kernel

/-- Port 0's SETTLED stream is held at line 1, and line 2 is settled. The advance past line 1 raises OVERRUN and READY. -/
def heldAtOne : State := opened (withLines up [line 1 .pending 1, line 2 .settled 0]) 0 .settled none

theorem test_meets_ReclaimOfALine_ready : heldAtOne.deliverable 0 = none ∧
    (heldAtOne.reclaimHead (line 1 .pending 1)).deliverable 0 = some (line 2 .settled 0) ∧
    EventSet.has ((heldAtOne.reclaimHead (line 1 .pending 1)).atn.get 0).pending evOverrun = true ∧
    EventSet.has ((heldAtOne.reclaimHead (line 1 .pending 1)).atn.get 0).pending evReady = true := by decide +kernel

/-- CLR runs a pass on line 1, whose one point it has made PENDING, or taken out of PENDING. -/
def firstPassing : State := passing { up with
    lnb := { up.lnb with lineCounter := 1 }
    rng := { up.rng with closed := [⟨{ line 1 .settled 0 with points := [{ point0 with colourState := .pending }] },
      .colouring⟩] } }
  ⟨1, .firstPass, 1, 1⟩
def stepping : State := passing (withLines { up with lnb := { up.lnb with lineCounter := 1 } } [line 1 .pending 1])
  ⟨1, .sweep, 1, 1⟩

theorem test_meets_FirstPassEnds : (firstPassing.elapse 0).rng.inProgress = some ⟨.clr, true⟩ ∧
    (firstPassing.elapse 0).clr.pass = some ⟨1, .firstPass, 1, 1⟩ ∧
    (firstPassing.elapse 0).rng.closed =
      [] ++ ⟨{ line 1 .settled 0 with points := [{ point0 with colourState := .pending }] }, .colouring⟩ :: [] ∧
    (line 1 .settled 0).points.length ≤ 1 := by decide +kernel
theorem test_meets_FirstPassEnds_LineColourInv : LineColourInv (firstPassing.elapse 0) := by
  refine ⟨?_, ?_, ?_, ?_, ?_⟩ <;> decide +kernel
theorem test_meets_BackfillStepEnds : (stepping.elapse 0).rng.inProgress = some ⟨.clr, true⟩ ∧
    (stepping.elapse 0).clr.pass = some ⟨1, .sweep, 1, 1⟩ ∧ PassKind.sweep ≠ .firstPass ∧
    (stepping.elapse 0).rng.committed = [] ++ line 1 .pending 1 :: [] ∧ (line 1 .pending 1).points.length ≤ 1 := by
  decide +kernel

/-- The step of `stepping` ends, and port 0's SETTLED stream is held at its line. -/
def steppingWatched : State := opened stepping 0 .settled none

theorem test_meets_BackfillStepEnds_ready : (steppingWatched.elapse 0).deliverable 0 = none ∧
    (line 1 .pending 1).points.countP (fun p => decide (p.colourState = .pending)) = 0 ∧
    ((steppingWatched.elapse 0).port 0).link = .up ∧
    ((nextOf (exec (.backfillStepEnd 0) steppingWatched)).map (fun t => ((t.deliverable 0).isSome,
      EventSet.has (t.atn.get 0).pending evReady))) = some (true, true) := by decide +kernel
theorem test_meets_BackfillStepEnds_LineColourInv : LineColourInv (stepping.elapse 0) := by
  refine ⟨?_, ?_, ?_, ?_, ?_⟩ <;> decide +kernel
theorem test_meets_BackfillStepEnds_ready_LineColourInv : LineColourInv (steppingWatched.elapse 0) := by
  refine ⟨?_, ?_, ?_, ?_, ?_⟩ <;> decide +kernel
theorem test_meets_ClrTransferEnds : (passing (withLines up [line 1 .pending 1]) ⟨1, .sweep, 0, 0⟩).passesOver
      ⟨1, .sweep, 0, 0⟩ (line 1 .pending 1) ∧ (line 1 .pending 1).points.drop 0 ≠ [] ∧
    ∃ (wanted : Point → Prop) (size traffic : Point → Nat) (moved : List Point → Nat),
      (∀ p, wanted p ↔ PassKind.sweep = .firstPass ∨ (p.colourState = .pending ∧
        ∀ id, PassKind.sweep = .task id → p.colourTag = BitVec.ofNat 8 id)) ∧
      (∀ p, size p = 12 + 8 * p.echoes.length) ∧ (∀ p, ¬ wanted p → traffic p = size p) ∧
      (∀ p q, wanted p → evaluate up.scn.params up.clr up.exs p = (q, none) → traffic p = size p + size p) ∧
      (∀ p q k, wanted p → evaluate up.scn.params up.clr up.exs p = (q, some k) → traffic p = size p + 3 + size p) ∧
      (∀ ps, moved ps = (ps.map traffic).sum) :=
  have h : (passing (withLines up [line 1 .pending 1]) ⟨1, .sweep, 0, 0⟩).rng.committed = [] ++ line 1 .pending 1 :: [] := by
    decide +kernel
  ⟨⟨rfl, nofun, fun _ => ⟨[], [], h, fun _ hy => absurd hy List.not_mem_nil⟩⟩, by decide,
    fun p => p.colourState = .pending, Point.size, up.recordTraffic ⟨1, .sweep, 0, 0⟩, fun ps => (ps.map _).sum,
    fun p => ⟨fun hp => .inr ⟨hp, nofun⟩, fun hp => hp.elim nofun And.left⟩, fun _ => rfl,
    fun p hp => by simp [State.recordTraffic, PassKind.evaluates, hp],
    fun p q hp he => by simp [State.recordTraffic, PassKind.evaluates, hp, he],
    fun p q k hp he => by simp [State.recordTraffic, PassKind.evaluates, hp, he], fun _ => rfl⟩
/-- Of 60 records of 20 bytes, each read and written back, a transfer carries 25. -/
theorem test_records_in_a_transfer :
    pointsFitting (up.recordTraffic ⟨1, .firstPass, 0, 0⟩) transferSize (List.replicate 60 point0) = 25 := by decide +kernel
theorem test_meets_PointDealtWith : (passing (withLines up [line 1 .pending 1]) ⟨1, .sweep, 0, 0⟩).clr.pass =
      some ⟨1, .sweep, 0, 0⟩ ∧ (line 1 .pending 1).points[0]? = some point0 ∧
    ({ point0 with colourState := .pending } : Point).colourState = .pending ∧ (evaluate up.scn.params up.clr up.exs point0).2 = none :=
  by decide +kernel

/-- CLR with a colour queue, work in hand and a pending-line list. -/
def choosing (queue : List Nat) (work : Option Work) (pendingList : List Nat) : Clr :=
  { up.clr with colourQueue := queue, work := work, pendingList := pendingList }

theorem test_meets_EngineChooses : (passing up ⟨1, .sweep, 0, 0⟩).clr.pass = some ⟨1, .sweep, 0, 0⟩ ∧
    (choosing [5] (some ⟨.task 1, some 3, some 3⟩) []).pass = none ∧ (3 : Nat) ≤ 3 ∧
    (choosing [5] (some ⟨.task 1, some 3, some 2⟩) [2, 3]).colourQueue = 5 :: [] ∧ (2 : Nat) < 3 ∧
    (choosing [] (some ⟨.task 1, some 3, some 2⟩) [2, 3]).pendingList = [2] ++ 3 :: [] ∧
    (∀ m ∈ (choosing [] (some ⟨.task 1, some 3, some 2⟩) [1, 2, 4]).pendingList, ¬ (m ≤ 3 ∧ 2 < m)) ∧
    (choosing [] none []).work = none ∧ ({ choosing [] none [] with sweepMark := true } : Clr).sweepMark = true ∧
    ({ choosing [] none [] with backfillQueue := [4] } : Clr).backfillQueue = 4 :: [] := by decide +kernel

/-! ### Exposures and tiles -/

theorem test_meets_StrobeEdges : (∀ x ∈ (up.elapse 0).exs.log, x.state ≠ .triggered) ∧
    ((withLog up [exposure 1 .exposed, exposure 2 .triggered]).elapse 0).exs.log =
      [exposure 1 .exposed] ++ exposure 2 .triggered :: [] ∧
    (∀ y ∈ [exposure 1 .exposed], y.state ≠ .triggered ∧ y.id ≠ (exposure 2 .triggered).id) ∧
    (exposure 2 .triggered).start = some 0 ∧ ({ exposure 2 .triggered with start := none } : Exposure).start = none := by
  decide +kernel
theorem test_meets_StrobeTimeout : ((withLog up [{ exposure 2 .triggered with strobe := some ⟨0, 0⟩ }]).elapse 0).exs.log =
      [] ++ { exposure 2 .triggered with strobe := some ⟨0, 0⟩ } :: [] ∧
    0 ≤ ((up.elapse 0).tb - 0).toNat := by decide +kernel
theorem test_meets_TileDeadlineExpiry :
    ((withLog up [{ exposure 2 .exposed with deadline := some ⟨0, 7⟩ }]).elapse 7).exs.log =
      [] ++ { exposure 2 .exposed with deadline := some ⟨0, 7⟩ } :: [] ∧ 2 = (2 : BitVec 32).toNat ∧
    7 ≤ (((withLog up []).elapse 7).tb - 0).toNat := by decide +kernel
theorem test_meets_TriggerCause : ({ up with exs := { up.exs with idCounter := 4294967295 } } : State).exs.idCounter =
      4294967295 ∧
    (∃ x ∈ (withLog up [exposure 2 .triggered]).exs.log, x.state = .triggered) ∧
    (64 ≤ (List.replicate 64 (exposure 1 .exposed)).length ∧
      ∀ x ∈ List.replicate 64 (exposure 1 .exposed), x.state.isTerminal = false) ∧
    (up.exs.idCounter ≠ 4294967295 ∧ (∀ x ∈ up.exs.log, x.state ≠ .triggered) ∧ up.exs.log.length < 64) ∧
    (64 ≤ (List.replicate 63 (exposure 1 .exposed) ++ exposure 2 .missed :: []).length ∧
      (∀ y ∈ List.replicate 63 (exposure 1 .exposed), y.state.isTerminal = false) ∧
      (exposure 2 .missed).state.isTerminal = true) := by decide +kernel
/-- A RUNNING scan with a trigger mode, stations at 0, one count and two, and a periodic counter. -/
def triggering (mode : CameraMode) (periodic : Nat) : State := { scanning .running with exs := { up.exs with
  stations := [0, 256, 512], nextStation := 1, periodic := periodic
  setup := { up.exs.setup with mode := mode, interval := 2 } } }

theorem test_meets_TravelTriggers : ((triggering .stations 2).elapse 0).scn.state = .running ∧
    ((triggering .stations 2).elapse 0).exs.setup.mode = .stations ∧
    ((triggering .off 2).elapse 0).exs.setup.mode = .off ∧
    (decide (((triggering .periodic 1).elapse 0).scn.params.azimuthSpan ≠ 0) && decide
      (((triggering .periodic 1).elapse 0).scn.params.azimuthSpan ≤ 256)) = false ∧
    ((triggering .periodic 1).elapse 0).exs.periodic = 1 ∧ 2 ≤ ((triggering .periodic 2).elapse 0).exs.periodic ∧
    ((triggering .periodic 2).elapse 0).exs.periodic ≤ ((triggering .periodic 2).elapse 0).exs.setup.interval ∧
    (decide (((spanning 256).elapse 0).scn.params.azimuthSpan ≠ 0) && decide
      (((spanning 256).elapse 0).scn.params.azimuthSpan ≤ 256)) = true := by decide +kernel
theorem test_meets_StationsAtEntry : (arming.elapse 2562560000).scn.state = .armed ∧
    (arming.elapse 2562560000).scn.inBand = 1 ∧ (arming.elapse 2562560000).eca.link = .up ∧
    (arming.elapse 2562560000).ang.mirror.armed = true ∧ (arming.elapse 2562560000).ang.prevIndex = some 0 ∧
    (arming.elapse 2562560000).exs.setup.mode ≠ .stations ∧ (triggering .stations 2).exs.setup.mode = .stations := by
  decide +kernel
theorem test_meets_ExposureDropCommand : (up.elapse 0).ready 3 0 ∧ ¬ (up.elapse 0).isImaging 3 ∧
    (up.elapse 0).ready 1 0 ∧ (up.elapse 0).isImaging 1 ∧ (∀ x ∈ (up.elapse 0).exs.log, x.id ≠ 1) ∧
    ∀ st ∈ [ExposureState.triggered, .exposed, .loading, .tiled, .expired, .dropped, .missed],
      ((withLog up [exposure 1 st]).elapse 0).exs.log = [] ++ exposure 1 st :: [] ∧ (exposure 1 st).id = 1 := by
  decide +kernel
theorem test_meets_TileLoadBegins : (up.elapse 0).ready 1 0 ∧ (up.elapse 0).isImaging 1 ∧
    (∀ x, ((up.elapse 0).port 1).tags.get x = none) ∧
    ((holding up 1 3 (.tileCells 0)).elapse 0).ready 1 0 ∧
    (((holding up 1 3 (.tileCells 0)).elapse 0).port 1).tags.get 3 = some (.tileCells 0) ∧
    (Job.tileCells 0).isTileLoad = true := by decide +kernel

/-- A TILE LOAD of exposure 1 that has gathered bytes of its descriptor. -/
def describingAfter (b : List Byte) (priority : Nat) (st : ExposureState) (slots : List TileSlot) : State :=
  withSlots (withLog (holding up 1 0 (.tileDescriptor ⟨1, priority, 2, 2⟩ b))
    [{ exposure 1 st with deadline := some ⟨0, 9⟩ }]) slots

/-- A TILE LOAD of exposure 1 that waits for its descriptor. -/
def describing (priority : Nat) (st : ExposureState) (slots : List TileSlot) : State := describingAfter [] priority st slots

def descriptor (azWidth mLow mHigh : Nat) : List Byte := leBytes 3 0 ++ leBytes 3 azWidth ++ leBytes 3 mLow ++ leBytes 3 mHigh

def fullTable : List TileSlot := (List.range 48).map (fun k => tile k .valid 0)

theorem test_meets_TileAccepted : (((describing 3 .exposed [tile 0 .valid 0]).elapse 0).port 1).link = .up ∧
    (((describing 3 .exposed [tile 0 .valid 0]).elapse 0).port 1).tags.get 0 = some (.tileDescriptor ⟨1, 3, 2, 2⟩ []) ∧
    (descriptor 8388608 0 1).length = 12 ∧ descriptorOf (descriptor 8388608 0 1) = window ∧
    ((describing 3 .exposed [tile 0 .valid 0]).elapse 0).exs.log =
      [] ++ { exposure 1 .exposed with deadline := some ⟨0, 9⟩ } :: [] ∧
    ((describing 3 .exposed [tile 0 .valid 0]).elapse 0).clr.slot 1 = none ∧
    (∀ j, j < 1 → ((describing 3 .exposed [tile 0 .valid 0]).elapse 0).clr.slot j ≠ none) := by decide +kernel
/-- A descriptor in two pieces, the second with two cell bytes behind it. -/
theorem test_meets_TileAccepted_in_pieces :
    (((describingAfter (zeros 5) 3 .exposed []).elapse 0).port 1).tags.get 0 = some (.tileDescriptor ⟨1, 3, 2, 2⟩ (zeros 5)) ∧
    12 ≤ ((descriptor 8388608 0 1).take 5 ++ ((descriptor 8388608 0 1).drop 5 ++ [7, 8])).length ∧
    (((descriptor 8388608 0 1).take 5 ++ ((descriptor 8388608 0 1).drop 5 ++ [7, 8])).drop 12).take (2 * 2 * 3) = [7, 8] ∧
    ((nextOf (exec (.dataOut 0 1 0 ((descriptor 8388608 0 1).drop 5 ++ [7, 8]))
      (describingAfter ((descriptor 8388608 0 1).take 5) 3 .exposed []))).map (fun t => t.clr.loader)) = some [⟨0, [7, 8]⟩] := by
  decide +kernel
theorem test_meets_TileDescriptorRefused : 3 < (4 : Nat) ∧ (descriptorOf (descriptor 0 0 1)).azWidth = 0 ∧
    8388608 < (descriptorOf (descriptor 8388609 0 1)).azWidth ∧
    (descriptorOf (descriptor 1 5 5)).mHigh.toNat ≤ (descriptorOf (descriptor 1 5 5)).mLow.toNat ∧
    (∀ x ∈ ((withLog (describing 3 .exposed []) [exposure 2 .exposed]).elapse 0).exs.log, x.id ≠ 1) ∧
    ((describing 3 .tiled []).elapse 0).exs.log = [] ++ { exposure 1 .tiled with deadline := some ⟨0, 9⟩ } :: [] ∧
    (∀ k, k < 48 → ((describing 3 .exposed fullTable).elapse 0).clr.slot k ≠ none) := by decide +kernel
theorem test_meets_CellBytesArrive :
    ((withSlots loading [{ tile 0 .loading 0 with received := 2 }]).elapse 0).clr.slot 0 =
      some { tile 0 .loading 0 with received := 2 } ∧
    (((withSlots loading [{ tile 0 .loading 0 with received := 2 }]).elapse 0).port 1).tags.get 0 = some (.tileCells 0) ∧
    ({ tile 0 .loading 0 with received := 2 } : TileSlot).received < 1 * 1 * 3 := by decide +kernel
theorem test_meets_TileRetireCommand : (up.elapse 0).ready 1 0 ∧ (up.elapse 0).isImaging 1 ∧ ¬ (up.elapse 0).isImaging 0 ∧
    47 < (48 : Byte).toNat ∧ (up.elapse 0).clr.slot 47 = none ∧ (47 : Byte).toNat ≤ 47 ∧
    ∀ st ∈ [SlotState.loading, .valid, .retiring], ∀ pins ∈ [0, 1],
      ((withSlots up [tile 47 st pins]).elapse 0).clr.slot 47 = some (tile 47 st pins) := by decide +kernel

/-- A tile that holds every direction of its window, listed in sector 0. -/
def coloured : Clr := { up.clr with slots := [tile 0 .valid 0], sectors := [0] :: List.replicate 63 [] }

/-- Eight tiles of one priority fill the list of sector 0. -/
def crowded : Clr := { up.clr with
  slots := (List.range 8).map (fun k => { tile k .valid 0 with exposure := 9 - k })
  sectors := List.range 8 :: List.replicate 63 [] }

theorem test_meets_SectorInsertion : 0 < crowded.sectors.length ∧
    8 ≤ ((crowded.sectors.getD 0 []).filterMap crowded.slot).length ∧
    (crowded.sectors.getD 0 []).filterMap crowded.slot =
      [] ++ crowded.slots.dropLast ++ [{ tile 7 .valid 0 with exposure := 2 }] ∧
    ((BitVec.ofNat 24 (0 * 262144) - window.azStart).toNat < window.azWidth) ∧
    ¬ ((BitVec.ofNat 24 (40 * 262144) - window.azStart).toNat < window.azWidth ∨ window.azStart.toNat / 262144 = 40) ∧
    (2 < (10 : Nat) ∧ ¬ 2 < (1 : Nat)) ∧ (coloured.sectors.getD 1 []).filterMap coloured.slot = [] ++ [] := by
  decide +kernel
theorem test_meets_ColourOfAPoint : ({ point0 with m := 0 } : Point).echoes = echoAt 6000 :: [] ∧
    ({ point0 with echoes := [] } : Point).echoes = [] ∧
    (0 : Int) = max (-262144) (min 262144 ((2 * (defaultScanParams.parallax * 10) + (6000 : Nat)) / (2 * (6000 : Nat)))) ∧
    (coloured.sectors.getD 0 []).filterMap coloured.slot = [] ++ tile 0 .valid 0 :: [] ∧
    ((0 - window.azStart : Angle).toNat < window.azWidth ∧ window.mLow.toNat ≤ 0 ∧ 0 < window.mHigh.toNat) ∧
    ¬ 1 < window.mHigh.toNat ∧ ((withLog up [exposure 1 .exposed]).exs.log.map Exposure.id).Pairwise (· < ·) ∧
    (exposure 1 .exposed).window = some window ∧ (exposure 1 .tiled).state ≠ .exposed := by decide +kernel

/-! ### Streams -/

theorem test_meets_StreamOpenCommand : (up.elapse 0).ready 2 0 ∧ 1 < (2 : Byte).toNat ∧ (1 : Byte).toNat ≤ 1 ∧
    2 < (3 : Byte).toNat ∧ (2 : Byte).toNat ≤ 2 ∧ ((up.elapse 0).stream 2).isOpen = false ∧
    (((opened up 2 .asis none).elapse 0).stream 2).isOpen = true := by decide +kernel
theorem test_meets_StreamCloseCommand : ((up.elapse 0).stream 2).isOpen = false ∧
    ((opened up 2 .asis none).elapse 0).ready 2 0 ∧ (((opened up 2 .asis none).elapse 0).stream 2).isOpen = true ∧
    (((opened up 2 .asis none).elapse 0).stream 2).read = none ∧
    (((opened up 2 .asis (some ⟨1, 1, .waiting⟩)).elapse 0).stream 2).read = some ⟨1, 1, .waiting⟩ := by decide +kernel
theorem test_meets_DeliverableLine : (up.stream 0).isOpen = false ∧
    (∀ x ∈ (withLines up []).rng.committed, x.header.lineNumber ≤ 0) ∧
    (withLines up [line 1 .settled 0, line 2 .pending 1]).rng.committed =
      [line 1 .settled 0] ++ line 2 .pending 1 :: [] ∧
    (∀ x ∈ [line 1 .settled 0], x.header.lineNumber ≤ 1) ∧ 1 < (line 2 .pending 1).header.lineNumber := by decide +kernel
theorem test_meets_LinesReadCommand : (up.elapse 0).ready 2 0 ∧ (64 : Byte).toNat ≤ 64 ∧
    ((up.elapse 0).stream 2).isOpen = false ∧
    (((opened up 2 .asis (some ⟨1, 1, .waiting⟩)).elapse 0).stream 2).read ≠ none ∧
    ((opened up 2 .asis none).elapse 0).deliverable 2 = none ∧
    ((opened (withLines up [line 1 .pending 1]) 2 .asis none).elapse 0).deliverable 2 = some (line 1 .pending 1) ∧
    ((opened (withLines up [line 1 .pending 1]) 2 .asis none).elapse 0).rng.lookup 1 = some (line 1 .pending 1) ∧
    ((opened (withLines up [line 1 .pending 1]) 2 .asis none).elapse 0).clr.pass = none ∧
    (stepping.elapse 0).clr.pass = some ⟨1, .sweep, 1, 1⟩ := by decide +kernel
theorem test_meets_WaitingReaderBegins : ((delivering 48 1).stream 3).read = some ⟨2, 1, .delivering 1 true 48⟩ ∧
    (delivering 48 1).rng.lookup 1 = some (line 1 .pending 1) ∧ ((delivering 48 1).port 3).link = .up ∧
    (delivering 48 1).clr.pass = none ∧
    (opened (withLines up [line 1 .pending 1]) 3 .asis (some ⟨2, 1, .waiting⟩)).deliverable 3 = some (line 1 .pending 1) ∧
    (opened stepping 3 .asis (some ⟨2, 1, .waiting⟩)).clr.pass = some ⟨1, .sweep, 1, 1⟩ ∧
    ((opened stepping 3 .asis (some ⟨2, 1, .delivering 1 false 0⟩)).stream 3).read = some ⟨2, 1, .delivering 1 false 0⟩ ∧
    (opened up 3 .asis (some ⟨2, 1, .waiting⟩)).deliverable 3 = none := by decide +kernel
theorem test_meets_LinesReleaseCommand : (up.elapse 0).ready 2 0 ∧ ((up.elapse 0).stream 2).isOpen = false ∧
    ((opened up 2 .asis none).elapse 0).ready 2 0 ∧ (((opened up 2 .asis none).elapse 0).stream 2).isOpen = true := by
  decide +kernel
theorem test_meets_LinesCheckCommand : (up.elapse 0).ready 2 0 ∧
    ([] : List Nat) = (((up.elapse 0).stream 2).table.filter (fun x => decide (x.state = .changed))).map CheckEntry.line ∧
    (List.replicate 64 0).length ≤ 64 := by decide +kernel
theorem test_meets_LineFindCommand : (up.elapse 0).ready 2 0 ∧ 1 < (2 : Byte).toNat ∧ (1 : Byte).toNat ≤ 1 ∧
    ((withLines up [line 1 .settled 0]).elapse 0).rng.committed = [] ++ line 1 .settled 0 :: [] ∧
    (1 : BitVec 32).toNat ≤ (line 1 .settled 0).header.lineNumber ∧
    ((decide ((0 - (line 1 .settled 0).header.firstA).toNat ≤
      ((line 1 .settled 0).header.lastA - (line 1 .settled 0).header.firstA).toNat)) ^^ false) = true ∧
    (∀ x ∈ (up.elapse 0).rng.committed, x.header.lineNumber < 0) := by decide +kernel

/-! ### Invariants -/

/-- The state after reset meets every invariant, and a step of it answers a next state. -/
theorem test_meets_invariants_kept : ScanInv State.reset ∧ EncoderInv State.reset ∧ PulseInv State.reset ∧
    LineInv State.reset ∧ RingInv State.reset ∧ ExposureInv State.reset ∧ TableInv State.reset ∧
    TileAreaInv State.reset ∧ CounterInv State.reset ∧ AttentionInv State.reset ∧ DownPortInv State.reset ∧
    CheckTableInv State.reset ∧ nextOf (step State.reset) = some { State.reset with tb := 1 } := by
  refine ⟨?_, ?_, ?_, ?_, ?_, ?_, ?_, ?_, ?_, ?_, ?_, ?_, ?_⟩ <;> decide +kernel
theorem test_meets_PendingCountKept : LineColourInv State.reset := by
  refine ⟨?_, ?_, ?_, ?_, ?_⟩ <;> decide +kernel
theorem test_meets_SetupInvariantKept : ScanRanges State.reset.scn.params ∧ CameraRanges State.reset.exs.setup ∧
    State.reset.lnb.mask = [] ∧ State.reset.exs.stations = [] ∧ State.reset.ang.calibration.length = 256 ∧
    (∀ p x, (State.reset.port p).tags.get x = none) := by decide +kernel

end Sys2Proof.Tests
end

namespace Sys2Proof.Machine

/-! ### What LNB leaves alone when it takes points and closes lines (R63 to R73) -/

/-- What LNB's own work leaves alone: every other block but for the arbiter's mode and raises, and the mask list. -/
structure LnbKept (s t : State) : Prop where
  tb : t.tb = s.tb
  ang : t.ang = s.ang
  eca : t.eca = s.eca
  scn : t.scn = s.scn
  exs : t.exs = s.exs
  clr : t.clr = s.clr
  prt : t.prt = s.prt
  pending : t.pending = s.pending
  mask : t.lnb.mask = s.lnb.mask
  atn : ∀ P : Atn → Prop, Raisable P → ∀ p, P (s.atn.get p) → P (t.atn.get p)

theorem LnbKept.refl (s : State) : LnbKept s s :=
  ⟨rfl, rfl, rfl, rfl, rfl, rfl, rfl, rfl, rfl, fun _ _ _ h => h⟩

theorem LnbKept.trans {s t u : State} (h : LnbKept s t) (k : LnbKept t u) : LnbKept s u where
  tb := k.tb.trans h.tb
  ang := k.ang.trans h.ang
  eca := k.eca.trans h.eca
  scn := k.scn.trans h.scn
  exs := k.exs.trans h.exs
  clr := k.clr.trans h.clr
  prt := k.prt.trans h.prt
  pending := k.pending.trans h.pending
  mask := k.mask.trans h.mask
  atn P hP p hp := k.atn P hP p (h.atn P hP p hp)

/-- A change of LNB's state that keeps the mask list. -/
theorem LnbKept.of_lnb {s t : State} (h : t = { s with lnb := t.lnb }) (hm : t.lnb.mask = s.lnb.mask) : LnbKept s t := by
  rw [h]
  exact ⟨rfl, rfl, rfl, rfl, rfl, rfl, rfl, rfl, hm, fun _ _ _ h => h⟩

theorem LnbKept.withFifo (s : State) (f : List FifoItem) : LnbKept s (s.withFifo f) :=
  ⟨rfl, rfl, rfl, rfl, rfl, rfl, rfl, rfl, rfl, fun _ _ _ h => h⟩

theorem LnbKept.raiseAll (s : State) (e : EventPos) : LnbKept s (s.raiseAll e) :=
  ⟨rfl, rfl, rfl, rfl, rfl, rfl, rfl, rfl, rfl, (Kept.raiseAll s e).atn⟩

theorem LnbKept.closeLine (s : State) (c : CloseCause) : LnbKept s (s.closeLine c) := by
  unfold State.closeLine
  split
  · exact .refl s
  · exact (LnbKept.withFifo s _).trans (.of_lnb rfl rfl)

theorem LnbKept.openLine (s : State) (rev : BitVec 32) : LnbKept s (s.openLine rev) :=
  (LnbKept.withFifo s _).trans (.of_lnb rfl rfl)

theorem LnbKept.setOpenLine (s : State) (h : LineHeader) : LnbKept s (s.setOpenLine h) := .of_lnb rfl rfl

theorem LnbKept.offerPoint (s : State) (h : LineHeader) (p : Point) : LnbKept s (s.offerPoint h p) := by
  unfold State.offerPoint
  simp only
  split
  · exact (LnbKept.withFifo s _).trans (.setOpenLine _ _)
  · split
    · exact (LnbKept.setOpenLine s _).trans (.of_lnb rfl rfl)
    · refine .trans ?_ (.raiseAll _ _)
      exact (LnbKept.setOpenLine s _).trans (.of_lnb rfl rfl)

theorem LnbKept.acceptPoint (s : State) (h : LineHeader) (x : FormedPoint) : LnbKept s (s.acceptPoint h x) := by
  unfold State.acceptPoint
  simp only
  split
  · exact (LnbKept.offerPoint s _ _).trans (.closeLine _ _)
  · exact .offerPoint s _ _

theorem LnbKept.checkRevolution (s : State) (rev : BitVec 32) : LnbKept s (s.checkRevolution rev) := by
  unfold State.checkRevolution
  split
  · exact .refl s
  · split
    · exact .refl s
    · exact .closeLine s _

theorem LnbKept.placePoint (s : State) (x : FormedPoint) : LnbKept s (s.placePoint x) := by
  unfold State.placePoint
  split
  · exact .acceptPoint s _ x
  · split
    · exact .of_lnb rfl rfl
    · split
      · exact .of_lnb rfl rfl
      · exact (LnbKept.openLine s _).trans (.acceptPoint _ _ x)

theorem LnbKept.maskPoint (s : State) (x : FormedPoint) : LnbKept s (s.maskPoint x) := by
  unfold State.maskPoint
  split
  · exact .of_lnb rfl rfl
  · exact .placePoint s _

theorem LnbKept.takePoint (s : State) (x : FormedPoint) : LnbKept s (s.takePoint x) := by
  have h := LnbKept.checkRevolution s x.revolution
  unfold State.takePoint
  simp only
  split
  · exact h.trans (.closeLine _ _)
  · split
    · exact h
    · split
      · exact h.trans (.of_lnb rfl rfl)
      · exact h.trans (.maskPoint _ x)

theorem LnbKept.clearSpent (s : State) : LnbKept s s.clearSpent := .of_lnb rfl rfl

theorem LnbKept.drainMark (s : State) : LnbKept s s.drainMark := (LnbKept.closeLine s _).trans (.clearSpent _)

theorem LnbKept.abortLine (s : State) : LnbKept s s.abortLine := (LnbKept.closeLine s _).trans (.clearSpent _)

/-! ### What the close of a pulse leaves alone (R36, R37) -/

/-- What closing pulses leaves alone, LNB's share included: of ANG and ECA only counters change. -/
structure PulsesClosed (s t : State) : Prop where
  tb : t.tb = s.tb
  ang : t.ang = { s.ang with counters := t.ang.counters }
  eca : t.eca = { s.eca with counters := t.eca.counters }
  scn : t.scn = s.scn
  exs : t.exs = s.exs
  prt : t.prt = s.prt
  pending : t.pending = s.pending
  mask : t.lnb.mask = s.lnb.mask

theorem PulsesClosed.refl (s : State) : PulsesClosed s s := ⟨rfl, rfl, rfl, rfl, rfl, rfl, rfl, rfl⟩

theorem PulsesClosed.trans {s t u : State} (h : PulsesClosed s t) (k : PulsesClosed t u) : PulsesClosed s u where
  tb := k.tb.trans h.tb
  ang := by rw [k.ang, h.ang]
  eca := by rw [k.eca, h.eca]
  scn := k.scn.trans h.scn
  exs := k.exs.trans h.exs
  prt := k.prt.trans h.prt
  pending := k.pending.trans h.pending
  mask := k.mask.trans h.mask

theorem LnbKept.pulsesClosed {s t : State} (h : LnbKept s t) : PulsesClosed s t :=
  ⟨h.tb, by rw [h.ang], by rw [h.eca], h.scn, h.exs, h.prt, h.pending, h.mask⟩

theorem PulsesClosed.closePulse (s : State) (r : PulseRec) : PulsesClosed s (s.closePulse r) := by
  have counted : PulsesClosed s { s with ang := s.ang.countAnswer (s.ang.mirrorQuery s.scn.params.mirrorZero r.time) } :=
    ⟨rfl, rfl, rfl, rfl, rfl, rfl, rfl, rfl⟩
  unfold State.closePulse
  simp only
  split
  · exact counted.trans ⟨rfl, rfl, rfl, rfl, rfl, rfl, rfl, rfl⟩
  · exact counted.trans (LnbKept.takePoint _ _).pulsesClosed

theorem PulsesClosed.foldl (l : List PulseRec) (s : State) : PulsesClosed s (l.foldl State.closePulse s) := by
  induction l generalizing s with
  | nil => exact .refl s
  | cons r l ih => exact (PulsesClosed.closePulse s r).trans (ih _)

/-! ### What EXS's firing leaves alone (R106 to R108) -/

/-- EXS's own work changes EXS and raises events, and nothing else. -/
structure ExsKept (s t : State) : Prop where
  rest : t = { s with exs := t.exs, atn := t.atn }
  atn : ∀ P : Atn → Prop, Raisable P → ∀ p, P (s.atn.get p) → P (t.atn.get p)

theorem ExsKept.refl (s : State) : ExsKept s s := ⟨rfl, fun _ _ _ h => h⟩

theorem ExsKept.trans {s t u : State} (h : ExsKept s t) (k : ExsKept t u) : ExsKept s u :=
  ⟨by rw [k.rest, h.rest], fun P hP p hp => k.atn P hP p (h.atn P hP p hp)⟩

theorem ExsKept.of_exs {s t : State} (h : t = { s with exs := t.exs }) : ExsKept s t := by
  rw [h]
  exact ⟨rfl, fun _ _ _ h => h⟩

theorem ExsKept.raiseAll (s : State) (e : EventPos) : ExsKept s (s.raiseAll e) := ⟨rfl, (Kept.raiseAll s e).atn⟩

theorem ExsKept.triggerCause (s : State) : ExsKept s s.triggerCause := by
  unfold State.triggerCause
  split
  · refine .trans ?_ (.raiseAll _ _)
    exact .of_exs rfl
  · exact .of_exs rfl

theorem ExsKept.reachStations (l : List Nat) (s : State) : ExsKept s (State.reachStations l s) := by
  induction l generalizing s with
  | nil => exact .refl s
  | cons v rest ih =>
    unfold State.reachStations
    split
    · refine .trans (.trans ?_ (.triggerCause _)) (ih _)
      exact .of_exs rfl
    · exact .refl s

theorem ExsKept.countPeriodic (s : State) (dir : Dir) : ExsKept s (s.countPeriodic dir) := by
  unfold State.countPeriodic
  split
  · split
    · have fired : ExsKept s ({ s with exs := { s.exs with periodic := 0 } } : State).triggerCause := by
        refine .trans ?_ (.triggerCause _)
        exact .of_exs rfl
      exact fired.trans (.of_exs rfl)
    · exact .of_exs rfl
  · exact .of_exs rfl

theorem ExsKept.exsTravel (s : State) (dir : Dir) : ExsKept s (s.exsTravel dir) := by
  unfold State.exsTravel
  split
  · split
    · exact .refl s
    · split
      · exact .reachStations _ s
      · exact .refl s
    · exact .countPeriodic s dir
  all_goals exact .refl s

theorem ExsKept.exsEnterRunning (s : State) : ExsKept s s.exsEnterRunning := by
  have begun : ExsKept s { s with exs := { s.exs with nextStation := 0, periodic := s.exs.setup.interval } } :=
    .of_exs rfl
  unfold State.exsEnterRunning
  simp only
  split
  · exact begun.trans (.reachStations _ _)
  all_goals exact begun

/-! ### What the reports of ANG leave alone (R48 to R55, R107, R108) -/

/-- What SCN, ECA, LNB and EXS leave alone when SCN takes a report and EXS a travel change: ANG but for its travel, the scan
parameters, the mask list, the tile area, and of the ports links, roles and counters. -/
structure ReportKept (s t : State) : Prop where
  tb : t.tb = s.tb
  ang : t.ang = { s.ang with travel := t.ang.travel }
  params : t.scn.params = s.scn.params
  mask : t.lnb.mask = s.lnb.mask
  tileArea : t.clr.tileArea = s.clr.tileArea
  ports : SamePorts s t
  pending : t.pending = s.pending
  atn : ∀ P : Atn → Prop, Raisable P → ∀ p, P (s.atn.get p) → P (t.atn.get p)

theorem SamePorts.refl (s : State) : SamePorts s s := fun _ => ⟨rfl, rfl, rfl⟩

theorem SamePorts.trans {s t u : State} (h : SamePorts s t) (k : SamePorts t u) : SamePorts s u := fun p => by
  obtain ⟨hl, hr, hc⟩ := h p
  obtain ⟨kl, kr, kc⟩ := k p
  exact ⟨kl.trans hl, kr.trans hr, kc.trans hc⟩

theorem SamePorts.of_prt {s t : State} (h : t.prt = s.prt) : SamePorts s t := fun p => by
  simp [State.port, h]

/-- A final CHECK changes of a port its frames, tags and sense record alone. -/
theorem SamePorts.finishCheck (s : State) (p : PortId) (tag : Tag) (c : SenseClass) (code : Nat) (info : Option Nat) :
    SamePorts s (s.finishCheck p tag c code info) := fun q => by
  by_cases h : q = p
  · subst h
    rw [State.finishCheck, State.port_modPort_same]
    exact ⟨Port.hand_link _ _, Port.hand_role _ _, Port.hand_counters _ _⟩
  · rw [State.finishCheck, State.port_modPort_other s _ h]
    exact ⟨rfl, rfl, rfl⟩

theorem ReportKept.refl (s : State) : ReportKept s s :=
  ⟨rfl, rfl, rfl, rfl, rfl, .refl s, rfl, fun _ _ _ h => h⟩

theorem ReportKept.trans {s t u : State} (h : ReportKept s t) (k : ReportKept t u) : ReportKept s u where
  tb := k.tb.trans h.tb
  ang := by rw [k.ang, h.ang]
  params := k.params.trans h.params
  mask := k.mask.trans h.mask
  tileArea := k.tileArea.trans h.tileArea
  ports := h.ports.trans k.ports
  pending := k.pending.trans h.pending
  atn P hP p hp := k.atn P hP p (h.atn P hP p hp)

theorem Kept.samePorts {s t : State} (h : Kept s t) : SamePorts s t := fun p => ⟨h.link p, h.role p, h.portCounters p⟩

theorem Kept.reportKept {s t : State} (h : Kept s t) : ReportKept s t :=
  ⟨h.tb, by rw [h.ang], by rw [h.scn], h.mask, h.tileArea, h.samePorts, h.pending, h.atn⟩

theorem LnbKept.reportKept {s t : State} (h : LnbKept s t) : ReportKept s t :=
  ⟨h.tb, by rw [h.ang], by rw [h.scn], h.mask, by rw [h.clr], .of_prt h.prt, h.pending, h.atn⟩

/-- A change of SCN but for its parameters, of ANG's travel, of ECA and of EXS. -/
theorem ReportKept.of_blocks {s t : State} (hp : t.scn.params = s.scn.params) (h : t = { s with
      scn := t.scn, ang := { s.ang with travel := t.ang.travel }, eca := t.eca, exs := t.exs }) : ReportKept s t := by
  rw [h]
  exact ⟨rfl, rfl, hp, rfl, rfl, .refl s, rfl, fun _ _ _ h => h⟩

theorem ReportKept.setInBand (s : State) (n : Nat) : ReportKept s (s.setInBand n) :=
  .of_blocks rfl rfl

theorem ReportKept.foldl {α : Type} {f : State → α → State} (hf : ∀ s a, ReportKept s (f s a)) (l : List α) (s : State) :
    ReportKept s (l.foldl f s) := by
  induction l generalizing s with
  | nil => exact .refl s
  | cons a l ih => exact (hf s a).trans (ih _)

theorem ReportKept.failReply (c : FaultCause) (s : State) (o : PortTag) : ReportKept s (State.failReply c s o) :=
  ⟨rfl, rfl, rfl, rfl, rfl, .finishCheck s _ _ _ _ _, rfl, fun _ _ _ h => h⟩

theorem ReportKept.enterFault (s : State) (c : FaultCause) : ReportKept s (s.enterFault c) := by
  have entered : ReportKept s { s with scn := s.scn.toFault c, eca := s.eca.discardPulses } :=
    .of_blocks rfl rfl
  have replied := (entered.trans (LnbKept.abortLine _).reportKept).trans
    (.foldl (ReportKept.failReply c) s.scn.pendingReplies _)
  exact (replied.trans (Kept.raiseAll _ _).reportKept).trans (Kept.raiseAll _ _).reportKept

theorem ExsKept.reportKept {s t : State} (h : ExsKept s t) : ReportKept s t where
  tb := by rw [h.rest]
  ang := by rw [h.rest]
  params := by rw [h.rest]
  mask := by rw [h.rest]
  tileArea := by rw [h.rest]
  ports := .of_prt (by rw [h.rest])
  pending := by rw [h.rest]
  atn := h.atn

theorem ReportKept.startDone (s : State) (r : Option PortTag) : ReportKept s (s.startDone r) := by
  unfold State.startDone
  split
  · exact .refl s
  · exact (Kept.finish s _ _ _).reportKept

theorem ReportKept.enterRunning (s : State) (t : Time) : ReportKept s (s.enterRunning t) := by
  have entered : ReportKept s { s with
      scn := s.scn.toRunning (s.ang.azimuthQuery t)
      ang := { s.ang with travel := 0 }
      eca := { s.eca with prevEmit := none } } := .of_blocks rfl rfl
  have raised := (entered.trans (.startDone _ s.scn.startReply)).trans (Kept.raiseAll _ evState).reportKept
  exact (raised.trans (LnbKept.clearSpent _).reportKept).trans (ExsKept.exsEnterRunning _).reportKept

theorem ReportKept.enterDraining (s : State) : ReportKept s s.enterDraining := by
  refine .trans ?_ (Kept.raiseAll _ _).reportKept
  exact .of_blocks rfl rfl

theorem ReportKept.armedReport (s : State) (v : Verdict) (t : Time) : ReportKept s (s.armedReport v t) := by
  unfold State.armedReport
  split
  · exact .setInBand s 0
  · exact .setInBand s 0
  · split
    · exact .setInBand s 0
    · split
      · exact .enterRunning s t
      · exact .setInBand s _

theorem ReportKept.revolutionReport (s : State) (v : Verdict) (t : Time) : ReportKept s (s.revolutionReport v t) := by
  unfold State.revolutionReport
  split
  · exact .armedReport s v t
  · split
    · exact .enterFault s _
    · exact .refl s
    · exact .refl s
  all_goals exact .refl s

theorem ReportKept.bandLossReport (s : State) (c : BandLossCause) : ReportKept s (s.bandLossReport c) := by
  unfold State.bandLossReport
  split
  · exact .setInBand s 0
  · exact .enterFault s _
  all_goals exact .refl s

theorem ReportKept.spanTest (s : State) : ReportKept s s.spanTest := by
  unfold State.spanTest
  split
  · split
    · exact .enterDraining s
    · exact .refl s
  all_goals exact .refl s

end Sys2Proof.Machine

namespace Sys2Proof.Machine

/-! ### The part of the state the capture invariants read -/

/-- What `EncoderInv` and `PulseInv` read is the same: both axes, ECA's history and previous EMIT, the scan state. -/
structure SameCapture (s t : State) : Prop where
  mirror : t.ang.mirror = s.ang.mirror
  azimuth : t.ang.azimuth = s.ang.azimuth
  history : t.eca.history = s.eca.history
  prevEmit : t.eca.prevEmit = s.eca.prevEmit
  state : t.scn.state = s.scn.state

theorem SameCapture.refl (s : State) : SameCapture s s := ⟨rfl, rfl, rfl, rfl, rfl⟩

theorem SameCapture.trans {s t u : State} (h : SameCapture s t) (k : SameCapture t u) : SameCapture s u :=
  ⟨k.mirror.trans h.mirror, k.azimuth.trans h.azimuth, k.history.trans h.history, k.prevEmit.trans h.prevEmit,
    k.state.trans h.state⟩

theorem SameCapture.of_eq {s t : State} (ang : t.ang = s.ang) (eca : t.eca = s.eca) (scn : t.scn = s.scn) :
    SameCapture s t := by
  refine ⟨?_, ?_, ?_, ?_, ?_⟩
  · rw [ang]
  · rw [ang]
  · rw [eca]
  · rw [eca]
  · rw [scn]

theorem Kept.sameCapture {s t : State} (h : Kept s t) : SameCapture s t := .of_eq h.ang h.eca h.scn

theorem LnbKept.sameCapture {s t : State} (h : LnbKept s t) : SameCapture s t := .of_eq h.ang h.eca h.scn

theorem ExsKept.sameCapture {s t : State} (h : ExsKept s t) : SameCapture s t :=
  .of_eq (by rw [h.rest]) (by rw [h.rest]) (by rw [h.rest])

theorem PulsesClosed.sameCapture {s t : State} (h : PulsesClosed s t) : SameCapture s t where
  mirror := by rw [h.ang]
  azimuth := by rw [h.ang]
  history := by rw [h.eca]
  prevEmit := by rw [h.eca]
  state := by rw [h.scn]

theorem SameCapture.settle {s t : State} (h : SameCapture s t) : SameCapture s t.settle :=
  h.trans (Kept.settle t).sameCapture

theorem SameCapture.foldl {α : Type} {f : State → α → State} (hf : ∀ s a, SameCapture s (f s a)) (l : List α)
    (s : State) : SameCapture s (l.foldl f s) := by
  induction l generalizing s with
  | nil => exact .refl s
  | cons a l ih => exact (hf s a).trans (ih _)

/-! ### Steps that keep the two invariants -/

/-- Going from `s` to `t` breaks neither the invariant of the edge histories nor that of the pulse history. -/
structure KeepsCapture (s t : State) : Prop where
  encoders : EncoderInv s → EncoderInv t
  pulses : PulseInv s → PulseInv t

theorem KeepsCapture.trans {s t u : State} (h : KeepsCapture s t) (k : KeepsCapture t u) : KeepsCapture s u :=
  ⟨fun i => k.encoders (h.encoders i), fun i => k.pulses (h.pulses i)⟩

theorem KeepsCapture.refl (s : State) : KeepsCapture s s := ⟨id, id⟩

theorem EncoderInv.congr {s t : State} (hm : t.ang.mirror = s.ang.mirror) (ha : t.ang.azimuth = s.ang.azimuth)
    (h : EncoderInv s) : EncoderInv t := by
  unfold EncoderInv
  rw [hm, ha]
  exact h

theorem PulseInv.congr {s t : State} (hh : t.eca.history = s.eca.history) (hq : t.eca.prevEmit = s.eca.prevEmit)
    (hs : t.scn.state = .idle ∨ t.scn.state = .armed ∨ t.scn.state = .fault → s.eca.history = [])
    (h : PulseInv s) : PulseInv t := by
  obtain ⟨bound, -, unsent, order, echoes⟩ := h
  unfold PulseInv
  rw [hh, hq]
  exact ⟨bound, hs, unsent, order, echoes⟩

theorem PulseInv.of_empty {s : State} (h : s.eca.history = []) : PulseInv s := by
  simp [PulseInv, h]

/-- Outside RUNNING and DRAINING no pulse is held. -/
theorem PulseInv.quiet {s : State} (h : PulseInv s)
    (hs : s.scn.state = .idle ∨ s.scn.state = .armed ∨ s.scn.state = .fault) : s.eca.history = [] := h.2.1 hs

theorem SameCapture.keeps {s t : State} (h : SameCapture s t) : KeepsCapture s t where
  encoders := .congr h.mirror h.azimuth
  pulses i := .congr h.history h.prevEmit (fun hs => i.quiet (h.state ▸ hs)) i

/-- The pulse history is emptied. -/
theorem KeepsCapture.of_empty {s t : State} (hm : t.ang.mirror = s.ang.mirror) (ha : t.ang.azimuth = s.ang.azimuth)
    (hh : t.eca.history = []) : KeepsCapture s t := ⟨.congr hm ha, fun _ => .of_empty hh⟩

/-- From a scan state in which no pulse is held, whatever the state and the previous EMIT become. -/
theorem KeepsCapture.of_quiet {s t : State} (hs : s.scn.state = .idle ∨ s.scn.state = .armed ∨ s.scn.state = .fault)
    (hm : t.ang.mirror = s.ang.mirror) (ha : t.ang.azimuth = s.ang.azimuth) (hh : t.eca.history = s.eca.history) :
    KeepsCapture s t := ⟨.congr hm ha, fun i => .of_empty (hh.trans (i.quiet hs))⟩

/-- To DRAINING, in which pulses may be held. -/
theorem KeepsCapture.of_draining {s t : State} (hs : t.scn.state = .draining)
    (hm : t.ang.mirror = s.ang.mirror) (ha : t.ang.azimuth = s.ang.azimuth) (hh : t.eca.history = s.eca.history)
    (hq : t.eca.prevEmit = s.eca.prevEmit) : KeepsCapture s t :=
  ⟨.congr hm ha, .congr hh hq (fun h => by rw [hs] at h; simp at h)⟩

theorem KeepsCapture.same {s t u : State} (h : KeepsCapture s t) (k : SameCapture t u) : KeepsCapture s u :=
  h.trans k.keeps

theorem KeepsCapture.settle {s t : State} (h : KeepsCapture s t) : KeepsCapture s t.settle :=
  h.same (Kept.settle t).sameCapture

/-- A command frame: refusals change its port alone, so only the command's own rule is left to look at. -/
theorem KeepsCapture.client {body : State → State} (hb : ∀ s, KeepsCapture s (body s)) (p : PortId) (tag : Tag)
    (allowed : Role → Bool) (s : State) : KeepsCapture s (client p tag allowed body s) := by
  have cleared : SameCapture s (s.clearSense p) := .of_eq rfl rfl rfl
  unfold Machine.client tagAndRole
  split
  · exact .refl s
  · split
    · exact cleared.keeps.same (.of_eq rfl rfl rfl)
    · split
      · exact cleared.keeps.trans (hb _)
      · exact cleared.keeps.same (.of_eq rfl rfl rfl)

/-! ### Edge histories (R8) -/

/-- Edge records in strictly ascending time. -/
abbrev TimesAscend (h : List EdgeRec) : Prop := h.Pairwise (fun a b => a.time.toNat < b.time.toNat)

theorem enterHistory_nil (r : EdgeRec) : enterHistory [] r = [r] := rfl

/-- A later record goes behind the newest, and the oldest of more than 32 leaves. -/
theorem enterHistory_later (h : List EdgeRec) {n r : EdgeRec} (hr : n.time.toNat < r.time.toNat) :
    enterHistory (h ++ [n]) r = ((h ++ [n]) ++ [r]).drop (h.length + 2 - 32) := by
  simp [enterHistory, hr, historyCapacity]

/-- A record of the newest one's time takes its place. -/
theorem enterHistory_sameTime (h : List EdgeRec) {n r : EdgeRec} (hr : n.time = r.time) :
    enterHistory (h ++ [n]) r = h ++ [⟨n.time, r.count, r.turn, r.dir⟩] := by
  simp [enterHistory, hr]

/-- An earlier record, which never comes, changes nothing. -/
theorem enterHistory_earlier (h : List EdgeRec) {n r : EdgeRec} (hr : r.time.toNat < n.time.toNat) :
    enterHistory (h ++ [n]) r = h ++ [n] := by
  have ne : n.time ≠ r.time := fun e => by rw [e] at hr; omega
  have nlt : ¬ n.time.toNat < r.time.toNat := by omega
  simp [enterHistory, ne, nlt]

theorem timesAscend_enterHistory {h : List EdgeRec} (r : EdgeRec) (hp : TimesAscend h) (hl : h.length ≤ 32) :
    TimesAscend (enterHistory h r) ∧ (enterHistory h r).length ≤ 32 := by
  rcases List.eq_nil_or_concat h with rfl | ⟨l, n, rfl⟩
  · simp [enterHistory_nil]
  · rw [List.concat_eq_append] at hp hl ⊢
    obtain ⟨hpl, -, hln⟩ := List.pairwise_append.1 hp
    rcases Nat.lt_trichotomy n.time.toNat r.time.toNat with later | same | earlier
    · rw [enterHistory_later l later]
      refine ⟨List.Pairwise.drop (List.pairwise_append.2 ⟨hp, by simp, ?_⟩), by simp; omega⟩
      intro a ha b hb
      rw [List.mem_singleton.1 hb]
      rcases List.mem_append.1 ha with ha | ha
      · exact (hln a ha n (by simp)).trans later
      · rwa [List.mem_singleton.1 ha]
    · rw [enterHistory_sameTime l (BitVec.eq_of_toNat_eq same)]
      refine ⟨List.pairwise_append.2 ⟨hpl, by simp, ?_⟩, by simpa using hl⟩
      intro a ha b hb
      rw [List.mem_singleton.1 hb]
      exact hln a ha n (by simp)
    · rw [enterHistory_earlier l earlier]
      exact ⟨hp, hl⟩

/-! ### Counted edges (R3 to R7) -/

theorem stepCount_lt {n : Nat} (hn : 0 < n) (count : Nat) (dir : Dir) : stepCount n count dir < n := by
  cases dir <;> exact Nat.mod_lt _ hn

theorem expectedIndex_lt {n : Nat} (hn : 0 < n) (dir : Dir) : expectedIndex n dir < n := by
  cases dir
  · exact hn
  · exact Nat.sub_lt hn Nat.one_pos

theorem AxisState.counted_history (x : AxisState) (n : Nat) (dir : Dir) (active : Bool) :
    (x.counted n dir active).1.history = x.history := by
  unfold AxisState.counted
  simp only
  split <;> rfl

theorem AxisState.counted_count_lt (x : AxisState) {n : Nat} (hn : 0 < n) (dir : Dir) (active : Bool) :
    (x.counted n dir active).1.count < n := by
  unfold AxisState.counted
  simp only
  split
  · exact stepCount_lt hn _ dir
  · exact stepCount_lt hn _ dir
  · exact expectedIndex_lt hn dir
  · exact stepCount_lt hn _ dir
  · exact expectedIndex_lt hn dir

/-- A counted edge keeps the axis within its bounds, whatever the time of its record. -/
theorem AxisInv.counted {n : Nat} {x : AxisState} (h : AxisInv n x) (hn : 0 < n) (t : Time) (dir : Dir) (active : Bool) :
    AxisInv n ((x.counted n dir active).1.record t dir) := by
  obtain ⟨-, bound, ascend⟩ := h
  unfold AxisState.record
  rw [AxisState.counted_history]
  obtain ⟨ascend', bound'⟩ := timesAscend_enterHistory
    ⟨t, (x.counted n dir active).1.count, (x.counted n dir active).1.turn, dir⟩ ascend bound
  exact ⟨AxisState.counted_count_lt x hn dir active, bound', ascend'⟩

/-! ### The pulse history (R23, R24, R27) -/

/-- The order of a pulse history below the previous EMIT `q`: times ascend to its time, ids to its id from a distance of at
most 15. -/
abbrev PulseOrder (q : PrevEmit) (h : List PulseRec) : Prop :=
  h.Pairwise (fun a b => a.time.toNat < b.time.toNat ∧ (q.id - b.id).toNat < (q.id - a.id).toNat) ∧
  ∀ r ∈ h, r.time.toNat ≤ q.time.toNat ∧ (q.id - r.id).toNat < 16

/-- At most four echoes, in strictly ascending range (R35). -/
abbrev EchoesAscend (es : List Echo) : Prop :=
  es.length ≤ 4 ∧ es.Pairwise (fun x y => x.range.toNat < y.range.toNat)

/-- The ids of a pulse history differ. -/
theorem PulseOrder.nodup_ids {q : PrevEmit} {h : List PulseRec} (ho : PulseOrder q h) : (h.map PulseRec.id).Nodup :=
  List.pairwise_map.2 (ho.1.imp (fun hab e => by rw [e] at hab; omega))

/-- Distances that fall strictly from below 16 leave room for 16 records. -/
theorem PulseOrder.length_le {q : PrevEmit} {h : List PulseRec} (ho : PulseOrder q h) : h.length ≤ 16 := by
  obtain ⟨order, below⟩ := ho
  have nodup : (h.map (fun r => (q.id - r.id).toNat)).Nodup :=
    List.pairwise_map.2 (order.imp (fun hab e => by omega))
  have within : h.map (fun r => (q.id - r.id).toNat) ⊆ List.range 16 := by
    intro d hd
    obtain ⟨r, hr, rfl⟩ := List.mem_map.1 hd
    exact List.mem_range.2 (below r hr).2
  simpa using (nodup.subperm within).length_le

/-- Two records of one id are the same record. -/
theorem PulseOrder.eq_of_id {q : PrevEmit} {h : List PulseRec} (ho : PulseOrder q h) {r r' : PulseRec} (hr : r ∈ h)
    (hr' : r' ∈ h) (hid : r.id = r'.id) : r = r' :=
  List.inj_on_of_nodup_map ho.nodup_ids hr hr' hid

/-- A change of each record that leaves its id and time. -/
theorem PulseOrder.map {q : PrevEmit} {h : List PulseRec} (ho : PulseOrder q h) {f : PulseRec → PulseRec}
    (hid : ∀ r, (f r).id = r.id) (ht : ∀ r, (f r).time = r.time) : PulseOrder q (h.map f) := by
  obtain ⟨order, below⟩ := ho
  refine ⟨List.pairwise_map.2 (order.imp (fun hab => by rwa [hid, hid, ht, ht])), ?_⟩
  intro r' hr'
  obtain ⟨r, hr, rfl⟩ := List.mem_map.1 hr'
  rw [hid, ht]
  exact below r hr

/-- The distance below a new id is the step to it and the distance below the previous one, where the sum stays within 16 bits. -/
theorem idDistance_add {id p r : BitVec 16} (h : (id - p).toNat + (p - r).toNat < 65536) :
    (id - r).toNat = (id - p).toNat + (p - r).toNat := by
  have split : id - r = (id - p) + (p - r) := by bv_omega
  rw [split, BitVec.toNat_add, Nat.mod_eq_of_lt h]

/-- An entered pulse stands last in the order, behind the records of ids less than 16 below it. -/
theorem PulseOrder.enter {q : PrevEmit} {h : List PulseRec} (ho : PulseOrder q h) {id : BitVec 16} {t : Time}
    (later : q.time.toNat < t.toNat) (step : 1 ≤ (id - q.id).toNat) (near : (id - q.id).toNat ≤ 32768) :
    PulseOrder ⟨id, t⟩ (h.filter (keptBy false id) ++ [⟨id, t, .isOpen, [], false, false⟩]) := by
  obtain ⟨order, below⟩ := ho
  have dist : ∀ r ∈ h, (id - r.id).toNat = (id - q.id).toNat + (q.id - r.id).toNat := fun r hr =>
    idDistance_add (by have := (below r hr).2; omega)
  have fresh : (id - id).toNat = 0 := by simp
  refine ⟨List.pairwise_append.2 ⟨?_, by simp, ?_⟩, ?_⟩
  · refine List.Pairwise.filter _ (order.imp_of_mem (fun {a b} ha hb hab => ?_))
    rw [dist a ha, dist b hb]
    exact ⟨hab.1, by omega⟩
  · intro a ha b hb
    have ha' := List.mem_of_mem_filter ha
    have haq := (below a ha').1
    rw [List.mem_singleton.1 hb]
    simp only [fresh, dist a ha']
    omega
  · intro r hr
    rcases List.mem_append.1 hr with hr | hr
    · obtain ⟨hr', kept⟩ := List.mem_filter.1 hr
      have hrq := (below r hr').1
      simp only [keptBy, idDistance, pulseCapacity, Bool.not_false, Bool.true_and] at kept
      exact ⟨by simp only; omega, of_decide_eq_true kept⟩
    · rw [List.mem_singleton.1 hr]
      simp

/-- After an id break, or as the first of a scan, an entered pulse stands alone. -/
theorem PulseOrder.alone (id : BitVec 16) (t : Time) (r : PulseRec) (hid : r.id = id) (ht : r.time = t) :
    PulseOrder ⟨id, t⟩ [r] := by
  have fresh : (id - id).toNat = 0 := by simp
  refine ⟨List.pairwise_singleton _ _, fun r' hr' => ?_⟩
  rw [List.mem_singleton.1 hr', hid, ht]
  exact ⟨Nat.le_refl _, by rw [fresh]; omega⟩

theorem filter_keptBy_break (id : BitVec 16) (h : List PulseRec) : h.filter (keptBy true id) = [] := by
  simp [keptBy]

/-! ### Closing pulses, and the entry of an EMIT (R25 to R27, R36) -/

/-- What `closePulses` makes of the history: each selected OPEN record is closed, the others stay. -/
theorem State.closePulses_history (s : State) (sel : PulseRec → Bool) :
    (s.closePulses sel).eca.history = s.eca.history.map (fun r => if r.isOpen && sel r then r.close else r) := by
  unfold State.closePulses
  simp only
  rw [(PulsesClosed.foldl _ s).eca]

/-- Closing pulses changes the history's records alone. -/
structure HistoryChanged (s t : State) : Prop where
  mirror : t.ang.mirror = s.ang.mirror
  azimuth : t.ang.azimuth = s.ang.azimuth
  prevEmit : t.eca.prevEmit = s.eca.prevEmit
  scn : t.scn = s.scn

theorem State.closePulses_changed (s : State) (sel : PulseRec → Bool) : HistoryChanged s (s.closePulses sel) := by
  have h := (PulsesClosed.foldl (s.eca.history.filter (fun r => r.isOpen && sel r)) s)
  refine ⟨?_, ?_, ?_, h.scn⟩
  · exact h.sameCapture.mirror
  · exact h.sameCapture.azimuth
  · exact h.sameCapture.prevEmit

theorem closedOrNot_id (sel : PulseRec → Bool) (r : PulseRec) : (if r.isOpen && sel r then r.close else r).id = r.id := by
  split <;> rfl

theorem closedOrNot_time (sel : PulseRec → Bool) (r : PulseRec) :
    (if r.isOpen && sel r then r.close else r).time = r.time := by
  split <;> rfl

theorem closedOrNot_echoes (sel : PulseRec → Bool) (r : PulseRec) :
    (if r.isOpen && sel r then r.close else r).echoes = r.echoes := by
  split <;> rfl

/-- The parts of `PulseInv` in RUNNING, with a previous EMIT. -/
theorem PulseInv.of_order {s : State} {q : PrevEmit} (hq : s.eca.prevEmit = some q)
    (hs : s.scn.state = .running ∨ s.scn.state = .draining) (order : PulseOrder q s.eca.history)
    (echoes : ∀ r ∈ s.eca.history, EchoesAscend r.echoes) : PulseInv s := by
  refine ⟨order.length_le, ?_, ?_, ?_, echoes⟩
  · intro h
    rcases hs with hs | hs <;> rw [hs] at h <;> simp at h
  · intro h
    rw [hq] at h
    cases h
  · intro q' hq'
    rw [hq] at hq'
    cases hq'
    exact order

/-- The history once an EMIT is entered: what step 1 of R27 left, without what step 2 takes out, and the new record. -/
theorem State.enterEmit_history (s : State) (isBreak : Bool) (id : BitVec 16) (t : Time) :
    (s.enterEmit isBreak id t).eca.history =
      (s.closePulses (closedBy isBreak id s.scn.params.zone)).eca.history.filter (keptBy isBreak id)
        ++ [⟨id, t, .isOpen, [], false, false⟩] := rfl

theorem State.enterEmit_changed (s : State) (isBreak : Bool) (id : BitVec 16) (t : Time) :
    (s.enterEmit isBreak id t).ang.mirror = s.ang.mirror ∧ (s.enterEmit isBreak id t).ang.azimuth = s.ang.azimuth ∧
      (s.enterEmit isBreak id t).scn = s.scn := by
  have h := s.closePulses_changed (closedBy isBreak id s.scn.params.zone)
  exact ⟨h.mirror, h.azimuth, h.scn⟩

/-- The entry of an EMIT in RUNNING keeps the invariant where it keeps the order. -/
theorem PulseInv.enterEmit {s : State} (h : PulseInv s) (hs : s.scn.state = .running) {isBreak : Bool} {id : BitVec 16}
    {t : Time} (order : PulseOrder ⟨id, t⟩ (s.enterEmit isBreak id t).eca.history) :
    PulseInv (s.enterEmit isBreak id t) := by
  obtain ⟨-, -, -, -, echoes⟩ := h
  refine .of_order (q := ⟨id, t⟩) rfl (.inl (by rw [(s.enterEmit_changed isBreak id t).2.2, hs])) order ?_
  intro r hr
  rw [State.enterEmit_history, State.closePulses_history] at hr
  rcases List.mem_append.1 hr with hr | hr
  · obtain ⟨r0, hr0, rfl⟩ := List.mem_map.1 (List.mem_of_mem_filter hr)
    rw [closedOrNot_echoes]
    exact echoes r0 hr0
  · rw [List.mem_singleton.1 hr]
    exact ⟨Nat.zero_le 4, .nil⟩

/-- An EMIT that is neither early nor a repetition nor a break is entered: it is the first, or a step of 1 to 32,768 ids. -/
theorem PulseInv.enterInSequence {s : State} (h : PulseInv s) (hs : s.scn.state = .running) {id : BitVec 16} {t : Time}
    (step : ∀ q, s.eca.prevEmit = some q →
      q.time.toNat < t.toNat ∧ 1 ≤ (id - q.id).toNat ∧ (id - q.id).toNat ≤ 32768) :
    PulseInv (s.enterEmit false id t) := by
  refine h.enterEmit hs ?_
  obtain ⟨-, -, unsent, order, -⟩ := h
  rw [State.enterEmit_history, State.closePulses_history]
  cases hq : s.eca.prevEmit with
  | none =>
    rw [unsent hq]
    exact .alone id t _ rfl rfl
  | some q =>
    obtain ⟨later, least, most⟩ := step q hq
    have before : PulseOrder q s.eca.history := order q hq
    exact (before.map (closedOrNot_id _) (closedOrNot_time _)).enter later least most

/-- An EMIT that breaks the sequence stands alone in the history. -/
theorem PulseInv.enterBreak {s : State} (h : PulseInv s) (hs : s.scn.state = .running) (id : BitVec 16) (t : Time) :
    PulseInv (s.enterEmit true id t) := by
  refine h.enterEmit hs ?_
  rw [State.enterEmit_history, filter_keptBy_break]
  exact .alone id t _ rfl rfl

/-- Past the time test, the step of an EMIT in sequence or after a gap lies from 1 to 32,768. -/
theorem emit_step {prev : Option PrevEmit} {id : BitVec 16} {t : Time} (early : emitTooEarly prev t = false)
    (hc : emitClass prev id = .inSequence ∨ ∃ n, emitClass prev id = .gap n) :
    ∀ q, prev = some q → q.time.toNat < t.toNat ∧ 1 ≤ (id - q.id).toNat ∧ (id - q.id).toNat ≤ 32768 := by
  rintro q rfl
  have later : q.time.toNat < t.toNat := by simpa [emitTooEarly] using early
  refine ⟨later, ?_⟩
  have ne0 : (id - q.id).toNat ≠ 0 := fun h0 => by simp only [emitClass, idDistance, h0] at hc; simp at hc
  refine ⟨by omega, ?_⟩
  by_contra far
  have ne1 : (id - q.id).toNat ≠ 1 := by omega
  simp only [emitClass, idDistance, ne0, ne1, far] at hc
  simp at hc

theorem PulseInv.testEmit {s : State} (h : PulseInv s) (hs : s.scn.state = .running) (id : BitVec 16) (t : Time) :
    PulseInv (s.testEmit id t) := by
  have counted {u : State} (k : SameCapture s u) : PulseInv u := k.keeps.pulses h
  unfold State.testEmit
  split
  · exact counted ⟨rfl, rfl, rfl, rfl, rfl⟩
  · rename_i early
    have step := emit_step (id := id) (Bool.not_eq_true _ ▸ early)
    split
    · rename_i hc
      exact h.enterInSequence hs (step (.inl hc))
    · rename_i n hc
      apply PulseInv.enterInSequence
      · exact counted ⟨rfl, rfl, rfl, rfl, rfl⟩
      · exact hs
      · exact step (.inr ⟨n, hc⟩)
    · exact counted ⟨rfl, rfl, rfl, rfl, rfl⟩
    · apply PulseInv.enterBreak
      · exact counted ⟨rfl, rfl, rfl, rfl, rfl⟩
      · exact hs

theorem State.testEmit_changed (s : State) (id : BitVec 16) (t : Time) :
    (s.testEmit id t).ang.mirror = s.ang.mirror ∧ (s.testEmit id t).ang.azimuth = s.ang.azimuth := by
  have entered (u : State) (b : Bool) := u.enterEmit_changed b id t
  unfold State.testEmit
  split
  · exact ⟨rfl, rfl⟩
  · split
    · exact ⟨(entered _ _).1, (entered _ _).2.1⟩
    · exact ⟨(entered _ _).1, (entered _ _).2.1⟩
    · exact ⟨rfl, rfl⟩
    · exact ⟨(entered _ _).1, (entered _ _).2.1⟩

theorem KeepsCapture.takeEmit (s : State) (id : BitVec 16) (t : Time) : KeepsCapture s (s.takeEmit id t) := by
  unfold State.takeEmit
  split
  · rename_i hs
    obtain ⟨hm, ha⟩ := s.testEmit_changed id t
    exact ⟨.congr hm ha, fun h => h.testEmit hs id t⟩
  all_goals exact SameCapture.keeps ⟨rfl, rfl, rfl, rfl, rfl⟩

/-! ### Echoes (R28 to R35) -/

/-- The range of an echo fits its 24 bits (R30). -/
theorem rangeOf_le (total offset scale : Nat) : (rangeOf total offset scale).1 ≤ maxRange := by
  simp only [rangeOf]
  split
  · exact Nat.zero_le _
  · generalize (2 * ((total - offset) * scale) + 1048576) / (2 * 1048576) = r
    split
    · exact Nat.le_refl _
    · rename_i below
      exact Nat.le_of_not_lt below

/-- An echo that is no orphan is judged against a record of the history (R28). -/
theorem judgeEcho_cases (q : ScanParams) (h : List PulseRec) (x : EchoRec) : judgeEcho q h x = .orphan ∨
    ∃ reference target, target ∈ h ∧ judgeEcho q h x = judgeTarget q x reference target := by
  unfold judgeEcho
  split
  · rename_i reference target _ found
    split
    · exact .inr ⟨reference, target, List.mem_of_find?_eq_some found, rfl⟩
    · exact .inl rfl
  · exact .inl rfl

/-- A judged echo that overflows does so at its target, and one that is kept goes behind its target's echoes: they are fewer
than four, the last of them nearer (R33 to R35). -/
theorem judgeTarget_cases (q : ScanParams) (x : EchoRec) (reference target : PulseRec) :
    (∀ t, judgeTarget q x reference target = .overflow t → t = target) ∧
    (∀ t e, judgeTarget q x reference target = .kept t e → t = target ∧
      ∀ y ∈ target.echoes.getLast?, y.range.toNat < e.range.toNat ∧ target.echoes.length < 4) := by
  have fits := rangeOf_le (totalDelay x.delay reference target) q.rangeOffset q.rangeScale
  unfold judgeTarget
  generalize rangeOf (totalDelay x.delay reference target) q.rangeOffset q.rangeScale = g at fits
  obtain ⟨r, near, far⟩ := g
  have width : (BitVec.ofNat 24 r).toNat = r := by
    rw [BitVec.toNat_ofNat]
    exact Nat.mod_eq_of_lt (by simp only [maxRange] at fits; omega)
  simp only
  split
  · simp
  · split
    · simp
    · split
      · rename_i last hlast
        split
        · simp
        · split
          · simp
          · rename_i farther room
            refine ⟨by simp, fun t e kept => ?_⟩
            cases kept
            refine ⟨rfl, fun y hy => ?_⟩
            rw [hlast] at hy
            cases hy
            exact ⟨by simp only [width]; omega, by simpa [echoCapacity] using room⟩
      · rename_i none
        refine ⟨by simp, fun t e kept => ?_⟩
        cases kept
        exact ⟨rfl, by simp [none]⟩

/-- What an overflow and a kept echo say of the history they are judged against. -/
theorem judgeEcho_target (q : ScanParams) (h : List PulseRec) (x : EchoRec) :
    (∀ t, judgeEcho q h x = .overflow t → t ∈ h) ∧
    (∀ t e, judgeEcho q h x = .kept t e →
      t ∈ h ∧ ∀ y ∈ t.echoes.getLast?, y.range.toNat < e.range.toNat ∧ t.echoes.length < 4) := by
  rcases judgeEcho_cases q h x with orphan | ⟨reference, target, mem, judged⟩
  · rw [orphan]
    simp
  · obtain ⟨overflow, kept⟩ := judgeTarget_cases q x reference target
    rw [judged]
    refine ⟨fun t ht => overflow t ht ▸ mem, fun t e ht => ?_⟩
    obtain ⟨rfl, last⟩ := kept t e ht
    exact ⟨mem, last⟩

/-- Echoes stay in order behind the last of them. -/
theorem EchoesAscend.append {es : List Echo} (h : EchoesAscend es) {e : Echo}
    (last : ∀ y ∈ es.getLast?, y.range.toNat < e.range.toNat ∧ es.length < 4) : EchoesAscend (es ++ [e]) := by
  obtain ⟨-, ascend⟩ := h
  rcases List.eq_nil_or_concat es with rfl | ⟨l, y, rfl⟩
  · simp [EchoesAscend]
  · rw [List.concat_eq_append] at ascend last ⊢
    obtain ⟨nearer, room⟩ := last y (by simp)
    refine ⟨by simp at room ⊢; omega, List.pairwise_append.2 ⟨ascend, by simp, ?_⟩⟩
    intro a ha b hb
    rw [List.mem_singleton.1 hb]
    rcases List.mem_append.1 ha with ha | ha
    · exact ((List.pairwise_append.1 ascend).2.2 a ha y (by simp)).trans nearer
    · rwa [List.mem_singleton.1 ha]

/-- A change of the records of one id that keeps their ids, times and the order of their echoes. -/
theorem KeepsCapture.mapPulse {s t : State} (target : PulseRec) (f : PulseRec → PulseRec)
    (hm : t.ang.mirror = s.ang.mirror) (ha : t.ang.azimuth = s.ang.azimuth) (hs : t.scn.state = s.scn.state)
    (hq : t.eca.prevEmit = s.eca.prevEmit) (hh : t.eca.history = (s.eca.mapPulse target.id f).history)
    (hmem : target ∈ s.eca.history) (hid : ∀ r, (f r).id = r.id) (ht : ∀ r, (f r).time = r.time)
    (he : EchoesAscend target.echoes → EchoesAscend (f target).echoes) : KeepsCapture s t := by
  refine ⟨.congr hm ha, ?_⟩
  rintro ⟨bound, idle, unsent, order, echoes⟩
  have history : t.eca.history = s.eca.history.map (fun r => if r.id = target.id then f r else r) := hh
  have hid' (r : PulseRec) : (if r.id = target.id then f r else r).id = r.id := by split <;> simp [hid]
  have ht' (r : PulseRec) : (if r.id = target.id then f r else r).time = r.time := by split <;> simp [ht]
  refine ⟨by rw [history, List.length_map]; exact bound, ?_, ?_, ?_, ?_⟩
  · intro h
    rw [history, idle (hs ▸ h), List.map_nil]
  · intro h
    rw [history, unsent (hq ▸ h), List.map_nil]
  · intro q h
    rw [history]
    exact PulseOrder.map (order q (hq ▸ h)) hid' ht'
  · intro r' hr'
    rw [history] at hr'
    obtain ⟨r, hr, rfl⟩ := List.mem_map.1 hr'
    split
    · rename_i same
      cases sent : s.eca.prevEmit with
      | none =>
        rw [unsent sent] at hr
        cases hr
      | some q =>
        have ordered : PulseOrder q s.eca.history := order q sent
        rw [ordered.eq_of_id hr hmem same]
        exact he (echoes target hmem)
    · exact echoes r hr

theorem KeepsCapture.processEcho (s : State) (x : EchoRec) : KeepsCapture s (s.processEcho x) := by
  unfold State.processEcho
  simp only
  split
  case h_5 target hj =>
    exact .mapPulse target _ rfl rfl rfl rfl rfl ((judgeEcho_target _ _ x).1 target hj) (fun _ => rfl) (fun _ => rfl) id
  case h_6 target e hj =>
    obtain ⟨mem, last⟩ := (judgeEcho_target _ _ x).2 target e hj
    exact .mapPulse target _ rfl rfl rfl rfl rfl mem (fun _ => rfl) (fun _ => rfl) (fun h => h.append last)
  all_goals exact SameCapture.keeps ⟨rfl, rfl, rfl, rfl, rfl⟩

theorem KeepsCapture.takeEcho (s : State) (x : EchoRec) : KeepsCapture s (s.takeEcho x) := by
  unfold State.takeEcho
  split
  · exact .processEcho s x
  · exact .processEcho s x
  all_goals exact SameCapture.keeps ⟨rfl, rfl, rfl, rfl, rfl⟩

end Sys2Proof.Machine

namespace Sys2Proof.Machine

/-! ### The passing of time, the scan's changes of state -/

/-- The wrap empties the three histories (R1). -/
theorem KeepsCapture.wrapActions (s : State) : KeepsCapture s s.wrapActions := by
  apply KeepsCapture.settle
  have h := s.closePulses_changed (fun _ => true)
  refine ⟨?_, fun _ => .of_empty rfl⟩
  rintro ⟨⟨countM, -, -⟩, ⟨countA, -, -⟩⟩
  refine ⟨⟨?_, by simp [Ang.wrap]⟩, ⟨?_, by simp [Ang.wrap]⟩⟩
  · show ((s.closePulses (fun _ => true)).ang.mirror).count < 16384
    rwa [h.mirror]
  · show ((s.closePulses (fun _ => true)).ang.azimuth).count < 65536
    rwa [h.azimuth]

theorem KeepsCapture.elapse (s : State) (dt : Nat) : KeepsCapture s (s.elapse dt) := by
  unfold State.elapse
  split
  · exact SameCapture.keeps ⟨rfl, rfl, rfl, rfl, rfl⟩
  · refine .trans ?_ (.wrapActions _)
    exact SameCapture.keeps ⟨rfl, rfl, rfl, rfl, rfl⟩

/-- What a command does once its time has passed decides. -/
theorem KeepsCapture.timed {f : State → State} (hf : ∀ e, KeepsCapture e (f e)) (s : State) (dt : Nat) :
    KeepsCapture s (f (s.elapse dt)) := (KeepsCapture.elapse s dt).trans (hf _)

theorem SameCapture.failReply (c : FaultCause) (s : State) (o : PortTag) : SameCapture s (State.failReply c s o) :=
  .of_eq rfl rfl rfl

/-- Entry to FAULT discards the pulses (R39). -/
theorem KeepsCapture.enterFault (s : State) (c : FaultCause) : KeepsCapture s (s.enterFault c) := by
  have entered : KeepsCapture s { s with scn := s.scn.toFault c, eca := s.eca.discardPulses } :=
    .of_empty rfl rfl rfl
  have replied := (entered.same (LnbKept.abortLine _).sameCapture).same
    (.foldl (SameCapture.failReply c) s.scn.pendingReplies _)
  exact (replied.same (Kept.raiseAll _ _).sameCapture).same (Kept.raiseAll _ _).sameCapture

theorem SameCapture.startDone (s : State) (r : Option PortTag) : SameCapture s (s.startDone r) := by
  unfold State.startDone
  split
  · exact .refl s
  · exact .of_eq rfl rfl rfl

/-- RUNNING is entered from ARMED, where no pulse is held, and clears the previous EMIT (R50, R24). -/
theorem KeepsCapture.enterRunning {s : State} (hs : s.scn.state = .armed) (t : Time) :
    KeepsCapture s (s.enterRunning t) := by
  have entered : KeepsCapture s { s with
      scn := s.scn.toRunning (s.ang.azimuthQuery t)
      ang := { s.ang with travel := 0 }
      eca := { s.eca with prevEmit := none } } := .of_quiet (.inr (.inl hs)) rfl rfl rfl
  have raised := (entered.same (.startDone _ s.scn.startReply)).same (Kept.raiseAll _ evState).sameCapture
  exact (raised.same (LnbKept.clearSpent _).sameCapture).same (ExsKept.exsEnterRunning _).sameCapture

theorem KeepsCapture.enterDraining (s : State) : KeepsCapture s s.enterDraining :=
  .of_draining rfl rfl rfl rfl rfl

/-- The end of the drain empties the pulse history (R38). -/
theorem KeepsCapture.completeDrain (s : State) : KeepsCapture s s.completeDrain := by
  have h := s.closePulses_changed (fun _ => true)
  have emptied : KeepsCapture s (s.closePulses (fun _ => true)).emptyHistory := .of_empty h.mirror h.azimuth rfl
  have drained : KeepsCapture s s.drainPulses := emptied.same (LnbKept.drainMark _).sameCapture
  have noPulse : s.drainPulses.eca.history = [] := by
    rw [State.drainPulses, (LnbKept.drainMark _).eca]
    rfl
  have stopped (u : State) (o : PortTag) : SameCapture u (u.stopDone o) := .of_eq rfl rfl rfl
  have idle : KeepsCapture s { s.drainPulses with
      scn := { s.drainPulses.scn with state := .idle, drain := none, stopReplies := [] } } :=
    drained.trans (.of_empty rfl rfl noPulse)
  exact (idle.same (.foldl stopped s.scn.stopReplies _)).same (Kept.raiseAll _ evState).sameCapture

/-! ### Reports of ANG and ECA (R48, R51, R54) -/

theorem SameCapture.setInBand (s : State) (n : Nat) : SameCapture s (s.setInBand n) := ⟨rfl, rfl, rfl, rfl, rfl⟩

theorem KeepsCapture.armedReport {s : State} (hs : s.scn.state = .armed) (v : Verdict) (t : Time) :
    KeepsCapture s (s.armedReport v t) := by
  unfold State.armedReport
  split
  · exact (SameCapture.setInBand s 0).keeps
  · exact (SameCapture.setInBand s 0).keeps
  · split
    · exact (SameCapture.setInBand s 0).keeps
    · split
      · exact .enterRunning hs t
      · exact (SameCapture.setInBand s _).keeps

theorem KeepsCapture.revolutionReport (s : State) (v : Verdict) (t : Time) :
    KeepsCapture s (s.revolutionReport v t) := by
  unfold State.revolutionReport
  split
  · rename_i hs
    exact .armedReport hs v t
  · split
    · exact .enterFault s _
    · exact .refl s
    · exact .refl s
  all_goals exact .refl s

theorem KeepsCapture.bandLossReport (s : State) (c : BandLossCause) : KeepsCapture s (s.bandLossReport c) := by
  unfold State.bandLossReport
  split
  · exact (SameCapture.setInBand s 0).keeps
  · exact .enterFault s _
  all_goals exact .refl s

theorem KeepsCapture.linkReport (s : State) : KeepsCapture s s.linkReport := by
  unfold State.linkReport
  split
  · exact .enterFault s _
  · exact .enterFault s _
  all_goals exact .refl s

theorem KeepsCapture.recordReport (s : State) (code : Byte) : KeepsCapture s (s.recordReport code) := by
  unfold State.recordReport
  split
  · exact .enterFault s _
  all_goals exact .refl s

theorem KeepsCapture.spanTest (s : State) : KeepsCapture s s.spanTest := by
  unfold State.spanTest
  split
  · split
    · exact .enterDraining s
    · exact .refl s
  all_goals exact .refl s

/-! ### Encoder inputs (R4 to R7, R17, R18) -/

theorem SameCapture.bandLoss (s : State) : SameCapture s (s.setAng s.ang.bandLoss) := ⟨rfl, rfl, rfl, rfl, rfl⟩

theorem KeepsCapture.bandLoss (s : State) (c : BandLossCause) : KeepsCapture s (s.bandLoss c) :=
  (SameCapture.bandLoss s).keeps.trans (.bandLossReport _ c)

theorem Ang.endRevolution_axes (g : Ang) (q : ScanParams) (t : Time) :
    (g.endRevolution q t).1.mirror = g.mirror ∧ (g.endRevolution q t).1.azimuth = g.azimuth := by
  unfold Ang.endRevolution
  split <;> exact ⟨rfl, rfl⟩

theorem KeepsCapture.endRevolution (s : State) : KeepsCapture s s.endRevolution := by
  obtain ⟨hm, ha⟩ := s.ang.endRevolution_axes s.scn.params s.tb
  have measured : SameCapture s (s.setAng (s.ang.endRevolution s.scn.params s.tb).1) := ⟨hm, ha, rfl, rfl, rfl⟩
  exact measured.keeps.trans (.revolutionReport _ _ _)

theorem SameCapture.raiseIndexFault (s : State) (r : IndexResult) : SameCapture s (s.raiseIndexFault r) := by
  unfold State.raiseIndexFault
  split
  · exact .of_eq rfl rfl rfl
  · exact .refl s

theorem KeepsCapture.mirrorEdge (s : State) (dir : Dir) (active : Bool) : KeepsCapture s (s.mirrorEdge dir active) := by
  have counted : KeepsCapture s (s.setAng ((s.ang.mirrorEdge s.tb dir active).1.restartStall s.scn.params s.tb)) :=
    ⟨fun ⟨hm, ha⟩ => ⟨hm.counted (by decide) s.tb dir active, ha⟩, fun h => h⟩
  have raised := counted.same (.raiseIndexFault _ (s.ang.mirrorEdge s.tb dir active).2)
  unfold State.mirrorEdge
  simp only
  split
  · exact raised.trans (.bandLoss _ _)
  · split
    · exact raised.trans (.endRevolution _)
    · exact raised

theorem KeepsCapture.azimuthEdge (s : State) (dir : Dir) (active : Bool) : KeepsCapture s (s.azimuthEdge dir active) := by
  have counted : KeepsCapture s (s.setAng (s.ang.azimuthEdge s.tb dir active).1) :=
    ⟨fun ⟨hm, ha⟩ => ⟨hm, ha.counted (by decide) s.tb dir active⟩, fun h => h⟩
  exact ((counted.same (.raiseIndexFault _ _)).trans (.spanTest _)).same (ExsKept.exsTravel _ dir).sameCapture

theorem KeepsCapture.quadratureError (s : State) (axis : Axis) : KeepsCapture s (s.quadratureError axis) := by
  cases axis
  · exact SameCapture.keeps ⟨rfl, rfl, rfl, rfl, rfl⟩
  · exact SameCapture.keeps ⟨rfl, rfl, rfl, rfl, rfl⟩

/-- The armed flag is no part of the invariant. -/
theorem KeepsCapture.indexInactive (s : State) (axis : Axis) : KeepsCapture s (s.setAng (s.ang.indexInactive axis)) := by
  cases axis
  · exact ⟨fun h => h, fun h => h⟩
  · exact ⟨fun h => h, fun h => h⟩

theorem KeepsCapture.seeIndex (s : State) (axis : Axis) (active : Bool) : KeepsCapture s (s.seeIndex axis active) := by
  unfold State.seeIndex
  split
  · exact .refl s
  · exact .indexInactive s axis

theorem KeepsCapture.takeEdge (s : State) (axis : Axis) (kind : EdgeKind) (active : Bool) :
    KeepsCapture s (s.takeEdge axis kind active) := by
  unfold State.takeEdge
  split
  · exact .mirrorEdge s _ active
  · exact .mirrorEdge s _ active
  · exact .azimuthEdge s _ active
  · exact .azimuthEdge s _ active
  · exact (KeepsCapture.quadratureError s _).trans (.seeIndex _ _ active)

theorem KeepsCapture.stallExpiry (s : State) : KeepsCapture s s.stallExpiry := by
  unfold State.stallExpiry
  split
  · refine .settle (.trans ?_ (.bandLoss _ _))
    exact SameCapture.keeps ⟨rfl, rfl, rfl, rfl, rfl⟩
  · exact .refl s

/-! ### The ranging link (R21, R22, R40) -/

theorem SameCapture.rangingUp (s : State) : SameCapture s s.rangingUp := by
  unfold State.rangingUp
  split
  · exact .refl s
  · exact ⟨rfl, rfl, rfl, rfl, rfl⟩

theorem KeepsCapture.rangingLoss (s : State) : KeepsCapture s s.rangingLoss := by
  unfold State.rangingLoss
  split
  · exact .refl s
  · refine .settle (.trans ?_ (.linkReport _))
    exact SameCapture.keeps ⟨rfl, rfl, rfl, rfl, rfl⟩

theorem KeepsCapture.onRecord {k : State → State} (hk : ∀ s, KeepsCapture s (k s)) (s : State) :
    KeepsCapture s (s.onRecord k) := by
  unfold State.onRecord
  split
  · exact .refl s
  · exact hk s

theorem KeepsCapture.takeFaultRecord (s : State) (code : Byte) : KeepsCapture s (s.takeFaultRecord code) := by
  refine .trans ?_ (.recordReport _ code)
  exact SameCapture.keeps ⟨rfl, rfl, rfl, rfl, rfl⟩

end Sys2Proof.Machine

namespace Sys2Proof.Machine

theorem KeepsCapture.of_eq {s t : State} (ang : t.ang = s.ang) (eca : t.eca = s.eca) (scn : t.scn = s.scn) :
    KeepsCapture s t := (SameCapture.of_eq ang eca scn).keeps

theorem KeepsCapture.foldl {α : Type} {f : State → α → State} (hf : ∀ s a, KeepsCapture s (f s a)) (l : List α)
    (s : State) : KeepsCapture s (l.foldl f s) := by
  induction l generalizing s with
  | nil => exact .refl s
  | cons a l ih => exact (hf s a).trans (ih _)

theorem KeepsCapture.answer (s : State) (p : PortId) (tag : Tag) (st : Status) : KeepsCapture s (s.answer p tag st) :=
  .of_eq rfl rfl rfl

theorem KeepsCapture.refuse (s : State) (p : PortId) (tag : Tag) (c : SenseClass) (code : Nat) (info : Option Nat) :
    KeepsCapture s (s.refuse p tag c code info) := .of_eq rfl rfl rfl

/-! ### Taking command frames and their data (R169, R171, R172) -/

theorem KeepsCapture.deliver (s : State) (p : PortId) (tag : Tag) (code : Byte) (ps : List (List Byte)) :
    KeepsCapture s (s.deliver p tag code ps) := by
  unfold State.deliver
  split <;> exact .of_eq rfl rfl rfl

theorem KeepsCapture.pump (s : State) (p : PortId) (tag : Tag) : KeepsCapture s (s.pump p tag) := by
  unfold State.pump
  split
  · split
    · exact .deliver s p tag _ _
    · exact .refl s
  · exact .refl s

theorem KeepsCapture.clientKeepSense {body : State → State} (hb : ∀ s, KeepsCapture s (body s)) (p : PortId)
    (tag : Tag) (s : State) : KeepsCapture s (clientKeepSense p tag body s) := by
  unfold Machine.clientKeepSense tagAndRole
  split
  · exact .refl s
  · split
    · exact .of_eq rfl rfl rfl
    · split
      · exact hb s
      · exact .of_eq rfl rfl rfl

theorem KeepsCapture.clientSkipTag {body : State → State} (hb : ∀ s, KeepsCapture s (body s)) (p : PortId)
    (s : State) : KeepsCapture s (clientSkipTag p body s) := by
  unfold Machine.clientSkipTag
  split
  · exact .refl s
  · refine .trans ?_ (hb _)
    exact .of_eq rfl rfl rfl

theorem KeepsCapture.inIdle {s : State} {k : State → State} (hk : s.scn.state = .idle → KeepsCapture s (k s))
    (p : PortId) (tag : Tag) : KeepsCapture s (s.inIdle p tag k) := by
  by_cases hs : s.scn.state = .idle
  · rw [State.inIdle_idle hs]
    exact hk hs
  · rw [State.inIdle_other hs]
    exact .of_eq rfl rfl rfl

theorem KeepsCapture.idleAtLastByte {k : State → State} (hk : ∀ s, KeepsCapture s (k s)) (s : State) (p : PortId)
    (tag : Tag) : KeepsCapture s (s.idleAtLastByte p tag k) := by
  by_cases hs : s.scn.state = .idle
  · rw [State.idleAtLastByte_idle hs]
    exact hk s
  · rw [State.idleAtLastByte_other hs]
    exact .of_eq rfl rfl rfl

theorem KeepsCapture.gatherAlone (s : State) (p : PortId) (tag : Tag) (like : Job → Bool) (j : Job) :
    KeepsCapture s (s.gatherAlone p tag like j) := by
  unfold State.gatherAlone
  split <;> exact .of_eq rfl rfl rfl

theorem KeepsCapture.countTest {k : State → State} (hk : ∀ s, KeepsCapture s (k s)) (s : State) (p : PortId) (tag : Tag)
    (count : Byte) (largest operand : Nat) : KeepsCapture s (s.countTest p tag count largest operand k) := by
  unfold State.countTest
  split
  · exact .of_eq rfl rfl rfl
  · exact hk s

/-! ### Scan commands (R47, R53, R56, R59) -/

theorem KeepsCapture.takeScanStart (s : State) (p : PortId) (tag : Tag) : KeepsCapture s (s.takeScanStart p tag) :=
  .inIdle (fun hs => .of_quiet (.inl hs) rfl rfl rfl) p tag

theorem State.abortStartReply_capture (s : State) :
    s.abortStartReply.ang = s.ang ∧ s.abortStartReply.eca = s.eca := by
  unfold State.abortStartReply
  split <;> exact ⟨rfl, rfl⟩

theorem KeepsCapture.deferStop (s : State) (p : PortId) (tag : Tag) : KeepsCapture s (s.deferStop p tag) :=
  SameCapture.keeps ⟨rfl, rfl, rfl, rfl, rfl⟩

theorem KeepsCapture.takeScanStop (s : State) (p : PortId) (tag : Tag) : KeepsCapture s (s.takeScanStop p tag) := by
  unfold State.takeScanStop
  split
  · exact .of_eq rfl rfl rfl
  · rename_i hs
    obtain ⟨ang, eca⟩ := State.abortStartReply_capture
      { s with scn := { s.scn with state := .idle, armed := none, inBand := 0 } }
    exact .of_quiet (.inr (.inl hs)) (congrArg Ang.mirror ang) (congrArg Ang.azimuth ang) (congrArg Eca.history eca)
  · exact (KeepsCapture.enterDraining s).trans (.deferStop _ p tag)
  · exact .deferStop s p tag
  · exact .of_eq rfl rfl rfl

theorem KeepsCapture.takeFaultClear (s : State) (p : PortId) (tag : Tag) : KeepsCapture s (s.takeFaultClear p tag) := by
  unfold State.takeFaultClear
  split
  · rename_i hs
    exact .of_quiet (.inr (.inr hs)) rfl rfl rfl
  all_goals exact .of_eq rfl rfl rfl

theorem KeepsCapture.restartTag (p : PortId) (s : State) (tag : Tag) : KeepsCapture s (State.restartTag p s tag) := by
  unfold State.restartTag
  split
  · exact .refl s
  · exact .of_eq rfl rfl rfl

/-- RESTART empties the three histories and leaves the counts (1.9). -/
theorem KeepsCapture.restartBlocks (s : State) : KeepsCapture s s.restartBlocks :=
  ⟨fun ⟨⟨countM, _, _⟩, ⟨countA, _, _⟩⟩ => ⟨⟨countM, Nat.zero_le _, .nil⟩, ⟨countA, Nat.zero_le _, .nil⟩⟩,
    fun _ => .of_empty rfl⟩

theorem KeepsCapture.takeRestart (s : State) (p : PortId) (tag : Tag) : KeepsCapture s (s.takeRestart p tag) := by
  have ended : KeepsCapture s (allPorts.foldl State.restartPort s) :=
    .foldl (fun s p => .foldl (KeepsCapture.restartTag p) allTags s) allPorts s
  refine .trans (ended.trans (.restartBlocks _)) ?_
  exact .of_eq rfl rfl rfl

/-! ### Data blocks (R15, R45, R76, R101, R103, R122 to R124) -/

theorem KeepsCapture.completeMirrorCalibrate (s : State) (p : PortId) (tag : Tag) (data : List Byte) :
    KeepsCapture s (s.completeMirrorCalibrate p tag data) := by
  refine .idleAtLastByte (fun s => ?_) s p tag
  exact SameCapture.keeps ⟨rfl, rfl, rfl, rfl, rfl⟩

theorem KeepsCapture.installScanParams (s : State) (p : PortId) (tag : Tag) (q : ScanParams) :
    KeepsCapture s (s.installScanParams p tag q) := by
  have installed : KeepsCapture s ({ s with scn := { s.scn with params := q } }.finish p tag .done) :=
    SameCapture.keeps ⟨rfl, rfl, rfl, rfl, rfl⟩
  unfold State.installScanParams
  simp only
  split
  · exact installed
  · exact installed.same (Kept.resizeRing _).sameCapture

theorem KeepsCapture.completeScanSetup (s : State) (p : PortId) (tag : Tag) (block : List Byte) :
    KeepsCapture s (s.completeScanSetup p tag block) := by
  refine .idleAtLastByte (fun s => ?_) s p tag
  split
  · exact .of_eq rfl rfl rfl
  · exact .installScanParams s p tag _

theorem KeepsCapture.completeMaskLoad (s : State) (p : PortId) (tag : Tag) (n : Nat) (data : List Byte) :
    KeepsCapture s (s.completeMaskLoad p tag n data) := by
  refine .idleAtLastByte (fun s => ?_) s p tag
  simp only
  split <;> exact .of_eq rfl rfl rfl

theorem KeepsCapture.completeCameraSetup (s : State) (p : PortId) (tag : Tag) (block : List Byte) :
    KeepsCapture s (s.completeCameraSetup p tag block) := by
  refine .idleAtLastByte (fun s => ?_) s p tag
  split <;> exact .of_eq rfl rfl rfl

theorem KeepsCapture.completeStationLoad (s : State) (p : PortId) (tag : Tag) (n : Nat) (data : List Byte) :
    KeepsCapture s (s.completeStationLoad p tag n data) := by
  refine .idleAtLastByte (fun s => ?_) s p tag
  simp only
  split <;> exact .of_eq rfl rfl rfl

theorem KeepsCapture.takeCells (s : State) (k : Nat) (bytes : List Byte) : KeepsCapture s (s.takeCells k bytes) := by
  unfold State.takeCells
  split <;> exact .of_eq rfl rfl rfl

theorem KeepsCapture.placeTile (s : State) (p : PortId) (tag : Tag) (ops : TileOperands) (w : AngularWindow) :
    KeepsCapture s (s.placeTile p tag ops w).1 := by
  unfold State.placeTile
  repeat' split
  all_goals exact .of_eq rfl rfl rfl

theorem KeepsCapture.completeDescriptor (s : State) (p : PortId) (tag : Tag) (ops : TileOperands) (bytes : List Byte) :
    KeepsCapture s (s.completeDescriptor p tag ops bytes) := by
  have placed := KeepsCapture.placeTile s p tag ops (descriptorOf bytes)
  unfold State.completeDescriptor
  simp only
  split
  · exact .of_eq rfl rfl rfl
  · split
    · rename_i s1 k h
      rw [h] at placed
      exact placed.trans (.takeCells s1 k _)
    · rename_i s1 h
      rw [h] at placed
      exact placed

theorem KeepsCapture.gather {complete : State → List Byte → State} (hc : ∀ s x, KeepsCapture s (complete s x))
    (s : State) (p : PortId) (tag : Tag) (need : Nat) (bytes : List Byte) (mk : List Byte → Job) :
    KeepsCapture s (s.gather p tag need bytes mk complete) := by
  unfold State.gather
  split
  · exact .of_eq rfl rfl rfl
  · exact hc s _

theorem KeepsCapture.takeData (s : State) (p : PortId) (tag : Tag) (payload : List Byte) :
    KeepsCapture s (s.takeData p tag payload) := by
  have stray : KeepsCapture s (s.stray p) := .of_eq rfl rfl rfl
  unfold State.takeData
  split
  · exact stray
  · split
    · exact .gather (fun s x => .completeMirrorCalibrate s p tag x) s p tag _ _ _
    · exact .gather (fun s x => .completeScanSetup s p tag x) s p tag _ _ _
    · exact .gather (fun s x => .completeMaskLoad s p tag _ x) s p tag _ _ _
    · exact .gather (fun s x => .completeCameraSetup s p tag x) s p tag _ _ _
    · exact .gather (fun s x => .completeStationLoad s p tag _ x) s p tag _ _ _
    · unfold State.gatherDescriptor
      split
      · exact .of_eq rfl rfl rfl
      · exact .completeDescriptor s p tag _ _
    · unfold State.cellFrame
      split
      · exact stray
      · split
        · exact .takeCells s _ payload
        · exact stray
    all_goals exact stray

theorem KeepsCapture.dataFrame (s : State) (p : PortId) (tag : Tag) (payload : List Byte) :
    KeepsCapture s (s.dataFrame p tag payload) := by
  unfold State.dataFrame
  split
  · exact .refl s
  · split
    · exact .of_eq rfl rfl rfl
    · exact (KeepsCapture.takeData s p tag payload).settle

/-! ### Commands that end early, client links, the transmitter (R166, R172, R175, R176) -/

theorem KeepsCapture.abortLoad (s : State) (k : Nat) : KeepsCapture s (s.abortLoad k) := by
  unfold State.abortLoad
  split <;> exact .of_eq rfl rfl rfl

theorem KeepsCapture.undo (s : State) (p : PortId) (tag : Tag) (j : Job) : KeepsCapture s (s.undo p tag j) := by
  cases j
  case tileCells k => exact .abortLoad s k
  all_goals exact SameCapture.keeps ⟨rfl, rfl, rfl, rfl, rfl⟩

theorem KeepsCapture.abortTag (s : State) (p : PortId) (tag : Tag) : KeepsCapture s (s.abortTag p tag) := by
  unfold State.abortTag
  split
  · exact .refl s
  · exact (KeepsCapture.undo s p tag _).trans (.of_eq rfl rfl rfl)

theorem KeepsCapture.takeTagAbort (s : State) (p : PortId) (tag : Tag) (target : Byte) :
    KeepsCapture s (s.takeTagAbort p tag target) := by
  unfold State.takeTagAbort
  split
  · exact .of_eq rfl rfl rfl
  · rename_i t _
    exact ((KeepsCapture.abortTag s p t).trans (.answer _ p tag .done)).settle

theorem KeepsCapture.dropTag (p : PortId) (s : State) (tag : Tag) : KeepsCapture s (State.dropTag p s tag) := by
  unfold State.dropTag
  split
  · exact .refl s
  · exact (KeepsCapture.undo s p tag _).trans (.of_eq rfl rfl rfl)

theorem KeepsCapture.portReset (s : State) (p : PortId) : KeepsCapture s (s.portReset p) := by
  have dropped : KeepsCapture s ((allTags.foldl (State.dropTag p) s).modPort p Port.cleared) :=
    (KeepsCapture.foldl (KeepsCapture.dropTag p) allTags s).trans (.of_eq rfl rfl rfl)
  exact (dropped.same (Kept.closeStream _ p false).sameCapture).trans (.of_eq rfl rfl rfl)

theorem KeepsCapture.clientUp (s : State) (p : PortId) : KeepsCapture s (s.clientUp p) := by
  unfold State.clientUp
  split
  · exact .refl s
  · exact .of_eq rfl rfl rfl

theorem KeepsCapture.clientLoss (s : State) (p : PortId) : KeepsCapture s (s.clientLoss p) := by
  unfold State.clientLoss
  split
  · exact .refl s
  · refine .settle (.trans ?_ (.portReset _ p))
    exact .of_eq rfl rfl rfl

theorem KeepsCapture.badFrame (s : State) (p : PortId) : KeepsCapture s (s.badFrame p) := by
  unfold State.badFrame
  split
  · exact .refl s
  · exact .of_eq rfl rfl rfl

theorem KeepsCapture.frameSent (s : State) (p : PortId) : KeepsCapture s (s.frameSent p) := by
  unfold State.frameSent
  split
  · exact .refl s
  · refine .settle (.trans ?_ (.foldl (fun s t => .pump s p t) allTags _))
    exact .of_eq rfl rfl rfl

/-! ### Commands of the other blocks -/

theorem KeepsCapture.takeMaskLoad (s : State) (p : PortId) (tag : Tag) (empty : Bool) (count : Byte) :
    KeepsCapture s (s.takeMaskLoad p tag empty count) := by
  unfold State.takeMaskLoad
  split
  · refine .inIdle (fun _ => ?_) p tag
    split <;> exact .of_eq rfl rfl rfl
  · exact .countTest (fun s => .inIdle (fun _ => .gatherAlone s p tag _ _) p tag) s p tag _ _ _

theorem KeepsCapture.takeStationLoad (s : State) (p : PortId) (tag : Tag) (empty : Bool) (count : Byte) :
    KeepsCapture s (s.takeStationLoad p tag empty count) := by
  unfold State.takeStationLoad
  split
  · refine .inIdle (fun _ => ?_) p tag
    split <;> exact .of_eq rfl rfl rfl
  · exact .countTest (fun s => .inIdle (fun _ => .gatherAlone s p tag _ _) p tag) s p tag _ _ _

theorem KeepsCapture.takeExposureDrop (s : State) (p : PortId) (tag : Tag) (exposure : BitVec 32) :
    KeepsCapture s (s.takeExposureDrop p tag exposure) := by
  unfold State.takeExposureDrop
  split
  · exact .of_eq rfl rfl rfl
  · split
    case h_3 =>
      refine .settle ?_
      exact .of_eq rfl rfl rfl
    all_goals exact .of_eq rfl rfl rfl

theorem KeepsCapture.takeTileLoad (s : State) (p : PortId) (tag : Tag) (exposure : BitVec 32) (priority w h : Byte) :
    KeepsCapture s (s.takeTileLoad p tag exposure priority w h) := by
  unfold State.takeTileLoad
  split <;> exact .of_eq rfl rfl rfl

theorem KeepsCapture.retireTile (s : State) (p : PortId) (tag : Tag) (t : TileSlot) :
    KeepsCapture s (s.retireTile p tag t) := by
  unfold State.retireTile
  split <;> exact .of_eq rfl rfl rfl

theorem KeepsCapture.takeTileRetire (s : State) (p : PortId) (tag : Tag) (slot : Byte) (exposure : BitVec 32) :
    KeepsCapture s (s.takeTileRetire p tag slot exposure) := by
  have refused (c : SenseClass) (info : Option Nat) : KeepsCapture s (s.refuse p tag c 0 info) := .of_eq rfl rfl rfl
  unfold State.takeTileRetire
  split
  · exact refused _ _
  · split
    · exact refused _ _
    · split
      · exact refused _ _
      · split <;> exact refused _ _
      · split
        · exact .retireTile s p tag _
        · exact refused _ _

theorem KeepsCapture.takeStreamOpen (s : State) (p : PortId) (tag : Tag) (mode start : Byte) (line : BitVec 32) :
    KeepsCapture s (s.takeStreamOpen p tag mode start line) := by
  unfold State.takeStreamOpen
  split
  · exact .of_eq rfl rfl rfl
  · split
    · exact .of_eq rfl rfl rfl
    · split
      · exact .of_eq rfl rfl rfl
      · unfold State.openStream
        simp only
        split <;> exact .of_eq rfl rfl rfl

theorem KeepsCapture.takeStreamClose (s : State) (p : PortId) (tag : Tag) :
    KeepsCapture s (s.takeStreamClose p tag) :=
  ((Kept.closeStream s p true).sameCapture.keeps.trans (.answer _ p tag .done)).settle

theorem KeepsCapture.startRead (s : State) (p : PortId) (tag : Tag) (count : Nat) :
    KeepsCapture s (s.startRead p tag count) := by
  have outstanding : KeepsCapture s ((s.setRead p (some ⟨tag, count, .waiting⟩)).hold p tag .linesRead) :=
    .of_eq rfl rfl rfl
  unfold State.startRead
  simp only
  split
  · exact outstanding.same (Kept.beginLine _ p _ _).sameCapture
  · exact outstanding.same (.of_eq rfl rfl rfl)

theorem KeepsCapture.takeLinesRead (s : State) (p : PortId) (tag : Tag) (count : Byte) :
    KeepsCapture s (s.takeLinesRead p tag count) := by
  refine .countTest (fun s => ?_) s p tag _ _ _
  split
  · split
    · exact .of_eq rfl rfl rfl
    · exact (KeepsCapture.startRead s p tag _).settle
  · exact .of_eq rfl rfl rfl

theorem KeepsCapture.takeLinesRelease (s : State) (p : PortId) (tag : Tag) (n : BitVec 32) :
    KeepsCapture s (s.takeLinesRelease p tag n) := by
  unfold State.takeLinesRelease
  split <;> exact .of_eq rfl rfl rfl

theorem KeepsCapture.takeLinesCheck (s : State) (p : PortId) (tag : Tag) : KeepsCapture s (s.takeLinesCheck p tag) := by
  refine .trans ?_ (.deliver _ p tag _ _)
  exact .of_eq rfl rfl rfl

theorem KeepsCapture.takeLineFind (s : State) (p : PortId) (tag : Tag) (start : BitVec 32) (criterion : Byte)
    (azimuth : Angle) (mask value : Byte) (invert : Bool) :
    KeepsCapture s (s.takeLineFind p tag start criterion azimuth mask value invert) := by
  unfold State.takeLineFind
  split <;> exact .of_eq rfl rfl rfl

theorem KeepsCapture.takeEventSetup (s : State) (p : PortId) (tag : Tag) (enable : BitVec 16) (mode first : Byte) :
    KeepsCapture s (s.takeEventSetup p tag enable mode first) := by
  unfold State.takeEventSetup
  repeat' split
  all_goals exact .of_eq rfl rfl rfl

theorem KeepsCapture.takeEventNext (s : State) (p : PortId) (tag : Tag) : KeepsCapture s (s.takeEventNext p tag) := by
  have taken : KeepsCapture s (s.modAtn p (fun _ => (s.atn.get p).next.1)) := .of_eq rfl rfl rfl
  unfold State.takeEventNext
  exact taken.trans (.deliver _ p tag _ _)

theorem KeepsCapture.takeEventFreeze (s : State) (p : PortId) (tag : Tag) (onOff : Byte) :
    KeepsCapture s (s.takeEventFreeze p tag onOff) := by
  unfold State.takeEventFreeze
  split <;> exact .of_eq rfl rfl rfl

theorem KeepsCapture.takeCountersRead (s : State) (p : PortId) (tag : Tag) (clear : Bool) :
    KeepsCapture s (s.takeCountersRead p tag clear) := by
  have cleared : KeepsCapture s s.clearCounters := SameCapture.keeps ⟨rfl, rfl, rfl, rfl, rfl⟩
  refine .trans ?_ (.deliver _ p tag _ _)
  split
  · exact cleared
  · exact .refl s

/-! ### The camera (R106 to R112) -/

theorem KeepsCapture.strobeRise (s : State) : KeepsCapture s s.strobeRise := by
  unfold State.strobeRise
  split <;> exact .of_eq rfl rfl rfl

theorem KeepsCapture.strobeFall (s : State) : KeepsCapture s s.strobeFall := by
  unfold State.strobeFall
  split
  · exact .refl s
  · split <;> exact .of_eq rfl rfl rfl

theorem KeepsCapture.strobeTimeout (s : State) : KeepsCapture s s.strobeTimeout := by
  unfold State.strobeTimeout
  split
  · exact .refl s
  · split
    · exact .of_eq rfl rfl rfl
    · exact .refl s

theorem KeepsCapture.tileDeadline (s : State) (id : Nat) : KeepsCapture s (s.tileDeadline id) := by
  unfold State.tileDeadline
  split
  · exact .refl s
  · split
    · exact .of_eq rfl rfl rfl
    · exact .refl s

/-! ### Transfers and engines (R74, R94, R124, R137, R142, R150) -/

theorem KeepsCapture.takeAbandonment (s : State) : KeepsCapture s s.takeAbandonment := by
  unfold State.takeAbandonment
  split <;> exact .of_eq rfl rfl rfl

theorem KeepsCapture.colourNext (s : State) : KeepsCapture s s.colourNext := by
  unfold State.colourNext
  split
  · exact .refl s
  · split
    · exact .refl s
    · split <;> exact .of_eq rfl rfl rfl

theorem KeepsCapture.colourPoints (n : Nat) (s : State) : KeepsCapture s (State.colourPoints n s) := by
  induction n generalizing s with
  | zero => exact .refl s
  | succ n ih => exact (KeepsCapture.colourNext s).trans (ih _)

theorem KeepsCapture.endFirstPass (s : State) (x : Pass) : KeepsCapture s (s.endFirstPass x) := by
  refine .trans ?_ ((Kept.releasePins _).trans (Kept.commitReady _)).sameCapture.keeps
  exact .of_eq rfl rfl rfl

theorem KeepsCapture.endStep (s : State) (x : Pass) : KeepsCapture s (s.endStep x) := by
  have released {u : State} (h : KeepsCapture s u) : KeepsCapture s u.releasePins :=
    h.same (Kept.releasePins u).sameCapture
  unfold State.endStep
  simp only
  split
  · refine released ?_
    exact .of_eq rfl rfl rfl
  · refine .same (released ?_) ((Kept.changeNotice _ x.line).trans (Kept.raiseReady s _)).sameCapture
    exact .of_eq rfl rfl rfl

theorem KeepsCapture.endClrTransfer (s : State) (work : Nat) : KeepsCapture s (s.endClrTransfer work) := by
  unfold State.endClrTransfer
  split
  · exact .refl s
  · split
    · unfold State.endPass
      split
      · exact .endFirstPass s _
      · exact .endStep s _
      · exact .endStep s _
    · exact .colourPoints _ s

theorem KeepsCapture.completeLoad (s : State) (k : Nat) : KeepsCapture s (s.completeLoad k) := by
  unfold State.completeLoad
  split
  · exact .refl s
  · simp only
    split <;> exact .of_eq rfl rfl rfl

theorem KeepsCapture.endLoaderTransfer (s : State) (k work : Nat) : KeepsCapture s (s.endLoaderTransfer k work) := by
  unfold State.endLoaderTransfer
  split
  · exact .refl s
  · split
    · exact .refl s
    · simp only
      split
      · refine .trans ?_ (.completeLoad _ k)
        exact .of_eq rfl rfl rfl
      · exact .of_eq rfl rfl rfl

theorem KeepsCapture.endReaderTransfer (s : State) (p : PortId) (work : Nat) :
    KeepsCapture s (s.endReaderTransfer p work) := by
  unfold State.endReaderTransfer
  split
  · split
    · exact .refl s
    · exact .of_eq rfl rfl rfl
  · exact .refl s

theorem KeepsCapture.endTransferOf (s : State) (o : TransferOwner) (work : Nat) :
    KeepsCapture s (s.endTransferOf o work) := by
  cases o with
  | ringWriter => exact .refl s
  | clr => exact .endClrTransfer s work
  | tileLoader k => exact .endLoaderTransfer s k work
  | reader p => exact .endReaderTransfer s p work

theorem KeepsCapture.endTransfer (s : State) (work : Nat) : KeepsCapture s (s.endTransfer work) := by
  have idle : KeepsCapture s { s with rng := { s.rng with inProgress := none } } := .of_eq rfl rfl rfl
  unfold State.endTransfer
  split
  · exact .refl s
  · refine .settle ?_
    split
    · exact idle.trans (.endTransferOf _ _ work)
    · exact idle

theorem KeepsCapture.firstPassEnd (s : State) : KeepsCapture s s.firstPassEnd := by
  unfold State.firstPassEnd
  split
  · exact .endTransfer s 0
  · exact .refl s

theorem KeepsCapture.backfillStepEnd (s : State) : KeepsCapture s s.backfillStepEnd := by
  unfold State.backfillStepEnd
  split
  · exact .endTransfer s 0
  · exact .refl s

theorem KeepsCapture.tileLoadComplete (s : State) : KeepsCapture s s.tileLoadComplete := by
  unfold State.tileLoadComplete
  split
  · exact .refl s
  · exact .endTransfer s _

theorem KeepsCapture.lineDeliveryComplete (s : State) (p : PortId) : KeepsCapture s (s.lineDeliveryComplete p) := by
  unfold State.lineDeliveryComplete
  split
  · exact .refl s
  · exact (Kept.completeDelivery s p _ _).sameCapture.settle.keeps

/-! ### Every command, every step -/

theorem KeepsCapture.powerOn (roles : Quad Role) (s : State) : KeepsCapture s (powerOnState roles s.pending) :=
  ⟨fun _ => ⟨⟨Nat.zero_lt_succ _, Nat.zero_le _, .nil⟩, ⟨Nat.zero_lt_succ _, Nat.zero_le _, .nil⟩⟩,
    fun _ => .of_empty rfl⟩

theorem KeepsCapture.wrap (s : State) : KeepsCapture s s.wrap := by
  refine .trans ?_ (.wrapActions _)
  exact .of_eq rfl rfl rfl

theorem KeepsCapture.armedTimer (s : State) : KeepsCapture s
    (if decide (s.scn.state = .armed) && timerDue s.scn.armed s.tb then (s.enterFault .mirrorBand).settle else s) := by
  split
  · exact (KeepsCapture.enterFault s _).settle
  · exact .refl s

theorem KeepsCapture.drainTimer (s : State) : KeepsCapture s
    (if decide (s.scn.state = .draining) && timerDue s.scn.drain s.tb then s.completeDrain.settle else s) := by
  split
  · exact (KeepsCapture.completeDrain s).settle
  · exact .refl s

/-- A command answers the state its meaning gives. -/
theorem KeepsCapture.of_next {s u t : State} (k : KeepsCapture s u)
    (h : (Host.Outcome.next u : Host.Outcome State Fault Refusal) = .next t) : KeepsCapture s t := by
  cases h
  exact k

theorem exec_keepsCapture (c : Instr) (s t : State) (h : exec c s = .next t) : KeepsCapture s t := by
  cases c with
  | powerOn straps => exact (KeepsCapture.powerOn (straps.map roleOfStraps) s).of_next h
  | tbWrap => exact (KeepsCapture.wrap s).of_next h
  | quadratureEdge dt axis kind active =>
    exact (KeepsCapture.timed (fun e => (KeepsCapture.takeEdge e axis kind active).settle) s dt).of_next h
  | indexInactive dt axis => exact (KeepsCapture.timed (.indexInactive · axis) s dt).of_next h
  | stallTimerExpiry dt => exact (KeepsCapture.timed .stallExpiry s dt).of_next h
  | rangingLinkUp dt => exact (KeepsCapture.timed (fun e => (SameCapture.rangingUp e).keeps) s dt).of_next h
  | rangingLinkLoss dt => exact (KeepsCapture.timed .rangingLoss s dt).of_next h
  | emit dt id time =>
    exact (KeepsCapture.timed (.onRecord (fun e => (KeepsCapture.takeEmit e id time).settle)) s dt).of_next h
  | echo dt reference delay amplitude width saturated =>
    exact (KeepsCapture.timed (.onRecord (.takeEcho · ⟨reference, delay, amplitude, width, saturated⟩)) s dt).of_next h
  | faultRecord dt code =>
    exact (KeepsCapture.timed (.onRecord (fun e => (KeepsCapture.takeFaultRecord e code).settle)) s dt).of_next h
  | armedTimerExpiry dt => exact (KeepsCapture.timed .armedTimer s dt).of_next h
  | drainTimerExpiry dt => exact (KeepsCapture.timed .drainTimer s dt).of_next h
  | abandonmentReport dt => exact (KeepsCapture.timed .takeAbandonment s dt).of_next h
  | dramTransferEnd dt work => exact (KeepsCapture.timed (.endTransfer · work) s dt).of_next h
  | firstPassEnd dt => exact (KeepsCapture.timed .firstPassEnd s dt).of_next h
  | backfillStepEnd dt => exact (KeepsCapture.timed .backfillStepEnd s dt).of_next h
  | strobeRise dt => exact (KeepsCapture.timed .strobeRise s dt).of_next h
  | strobeFall dt => exact (KeepsCapture.timed .strobeFall s dt).of_next h
  | strobeTimeoutExpiry dt => exact (KeepsCapture.timed .strobeTimeout s dt).of_next h
  | tileDeadlineExpiry dt exposure =>
    exact (KeepsCapture.timed (fun e => (KeepsCapture.tileDeadline e exposure.toNat).settle) s dt).of_next h
  | tileLoadComplete dt => exact (KeepsCapture.timed .tileLoadComplete s dt).of_next h
  | lineDeliveryComplete dt p => exact (KeepsCapture.timed (.lineDeliveryComplete · p) s dt).of_next h
  | clientLinkUp dt p => exact (KeepsCapture.timed (.clientUp · p) s dt).of_next h
  | clientLinkLoss dt p => exact (KeepsCapture.timed (.clientLoss · p) s dt).of_next h
  | badFrame dt p => exact (KeepsCapture.timed (.badFrame · p) s dt).of_next h
  | dataOut dt p tag payload => exact (KeepsCapture.timed (.dataFrame · p tag payload) s dt).of_next h
  | frameTransmitted dt p => exact (KeepsCapture.timed (.frameSent · p) s dt).of_next h
  | unknownCommand dt p tag code =>
    exact (KeepsCapture.timed (.client (fun e => .refuse e p tag .arg 0 _) p tag everyRole) s dt).of_next h
  | identify dt p tag =>
    exact (KeepsCapture.timed (.client (fun e => .deliver e p tag _ _) p tag everyRole) s dt).of_next h
  | statusRead dt p tag =>
    exact (KeepsCapture.timed (.client (fun e => .deliver e p tag _ _) p tag everyRole) s dt).of_next h
  | countersRead dt p tag clear =>
    exact (KeepsCapture.timed (.client (.takeCountersRead · p tag clear) p tag everyRole) s dt).of_next h
  | senseRead dt p tag =>
    exact (KeepsCapture.timed (.clientKeepSense (fun e => .deliver e p tag _ _) p tag) s dt).of_next h
  | tagAbort dt p tag target =>
    exact (KeepsCapture.timed (.clientSkipTag (.takeTagAbort · p tag target) p) s dt).of_next h
  | portReset dt p tag =>
    exact (KeepsCapture.timed (.clientSkipTag
      (fun e => ((KeepsCapture.portReset e p).trans (.answer _ p tag .done)).settle) p) s dt).of_next h
  | eventSetup dt p tag enable mode first =>
    exact (KeepsCapture.timed (.client (.takeEventSetup · p tag enable mode first) p tag everyRole) s dt).of_next h
  | eventNext dt p tag =>
    exact (KeepsCapture.timed (.client (.takeEventNext · p tag) p tag everyRole) s dt).of_next h
  | eventFreeze dt p tag onOff =>
    exact (KeepsCapture.timed (.client (.takeEventFreeze · p tag onOff) p tag everyRole) s dt).of_next h
  | scanSetup dt p tag =>
    exact (KeepsCapture.timed (.client (fun e => .inIdle (fun _ => .gatherAlone e p tag _ _) p tag) p tag onlyControl)
      s dt).of_next h
  | scanStart dt p tag =>
    exact (KeepsCapture.timed (.client (.takeScanStart · p tag) p tag onlyControl) s dt).of_next h
  | scanStop dt p tag =>
    exact (KeepsCapture.timed (.client (.takeScanStop · p tag) p tag onlyControl) s dt).of_next h
  | faultClear dt p tag =>
    exact (KeepsCapture.timed (.client (.takeFaultClear · p tag) p tag onlyControl) s dt).of_next h
  | restart dt p tag =>
    exact (KeepsCapture.timed (.client (.takeRestart · p tag) p tag onlyControl) s dt).of_next h
  | mirrorCalibrate dt p tag =>
    exact (KeepsCapture.timed (.client (fun e => .inIdle (fun _ => .gatherAlone e p tag _ _) p tag) p tag onlyControl)
      s dt).of_next h
  | maskLoad dt p tag empty count =>
    exact (KeepsCapture.timed (.client (.takeMaskLoad · p tag empty count) p tag onlyControl) s dt).of_next h
  | cameraSetup dt p tag =>
    exact (KeepsCapture.timed (.client (fun e => .inIdle (fun _ => .gatherAlone e p tag _ _) p tag) p tag
      imagingOrControl) s dt).of_next h
  | stationLoad dt p tag empty count =>
    exact (KeepsCapture.timed (.client (.takeStationLoad · p tag empty count) p tag onlyImaging) s dt).of_next h
  | exposuresRead dt p tag after count =>
    exact (KeepsCapture.timed (.client (fun e => .countTest (fun e => .deliver e p tag _ _) e p tag _ _ _) p tag
      everyRole) s dt).of_next h
  | exposureDrop dt p tag exposure =>
    exact (KeepsCapture.timed (.client (.takeExposureDrop · p tag exposure) p tag onlyImaging) s dt).of_next h
  | tileLoad dt p tag exposure priority w hh =>
    exact (KeepsCapture.timed (.client (.takeTileLoad · p tag exposure priority w hh) p tag onlyImaging) s dt).of_next h
  | tileRetire dt p tag slot exposure =>
    exact (KeepsCapture.timed (.client (.takeTileRetire · p tag slot exposure) p tag onlyImaging) s dt).of_next h
  | tilesList dt p tag =>
    exact (KeepsCapture.timed (.client (fun e => .deliver e p tag _ _) p tag everyRole) s dt).of_next h
  | streamOpen dt p tag mode start startLine =>
    exact (KeepsCapture.timed (.client (.takeStreamOpen · p tag mode start startLine) p tag everyRole) s dt).of_next h
  | streamClose dt p tag =>
    exact (KeepsCapture.timed (.client (.takeStreamClose · p tag) p tag everyRole) s dt).of_next h
  | linesRead dt p tag count =>
    exact (KeepsCapture.timed (.client (.takeLinesRead · p tag count) p tag everyRole) s dt).of_next h
  | linesRelease dt p tag n =>
    exact (KeepsCapture.timed (.client (.takeLinesRelease · p tag n) p tag everyRole) s dt).of_next h
  | linesCheck dt p tag =>
    exact (KeepsCapture.timed (.client (.takeLinesCheck · p tag) p tag everyRole) s dt).of_next h
  | lineFind dt p tag startLine criterion azimuth mask value invert =>
    exact (KeepsCapture.timed (.client (.takeLineFind · p tag startLine criterion azimuth mask value invert) p tag
      everyRole) s dt).of_next h

theorem step_keepsCapture (s t : State) (h : step s = .next t) : KeepsCapture s t := by
  unfold step at h
  split at h
  · exact (KeepsCapture.elapse s 1).of_next h
  · rename_i c rest _
    have taken : KeepsCapture s { s with pending := rest } := .of_eq rfl rfl rfl
    exact taken.trans (exec_keepsCapture c _ t h)

/-- Settles O51: every operation of the model keeps both invariants (`KeepsCapture`), and so does every command. -/
theorem captureInvariantKept : Obligations.CaptureInvariantKept :=
  ⟨fun s t inv h => (step_keepsCapture s t h).encoders inv, fun s t inv h => (step_keepsCapture s t h).pulses inv⟩

end Sys2Proof.Machine

namespace Sys2Proof.Machine

/-! ### The raw angle, case by case (R10 to R12) -/

/-- au per count of an axis (1.2). -/
def unitOf : Axis → Nat
  | .mirror => 1024
  | .azimuth => 256

theorem rawAngle_nil (axis : Axis) (tp : Time) : rawAngle axis [] tp = ⟨0, none, [], false, true⟩ := rfl

theorem rawAngle_single (axis : Axis) (r : EdgeRec) (tp : Time) :
    rawAngle axis [r] tp = holdAt (unitOf axis) r false true := by
  cases axis <;> rfl

theorem rawAngle_before (axis : Axis) {r : EdgeRec} (r' : EdgeRec) (h : List EdgeRec) {tp : Time}
    (ht : tp.toNat < r.time.toNat) : rawAngle axis (r :: r' :: h) tp = holdAt (unitOf axis) r false true := by
  cases axis <;> simp [rawAngle, ht, unitOf, mirrorUnit, azimuthUnit]

theorem angleOfInt_natCast (n : Nat) : angleOfInt n = BitVec.ofNat 24 n := BitVec.ofInt_natCast 24 n

theorem holdAt_eq (u : Nat) (r : EdgeRec) (extrapolated stale : Bool) :
    holdAt u r extrapolated stale = ⟨BitVec.ofNat 24 (r.count * u), some r.turn, [r], extrapolated, stale⟩ := by
  rw [holdAt, angleOfInt_natCast]

theorem Ang.mirrorQuery_stale (g : Ang) (mirrorZero : Nat) (tp : Time) :
    (g.mirrorQuery mirrorZero tp).stale = (rawAngle .mirror g.mirror.history tp).stale := rfl

/-- Settles O17: no record, one record, and an instant before the oldest are `rawAngle`'s first three cases. -/
theorem heldAngles : Obligations.HeldAngles := by
  intro g mirrorZero tp r r' h
  have one (axis : Axis) := (rawAngle_single axis r tp).trans (holdAt_eq _ r false true)
  have early (axis : Axis) (ht : tp.toNat < r.time.toNat) :=
    (rawAngle_before axis r' h ht).trans (holdAt_eq _ r false true)
  refine ⟨fun ht => ⟨early .mirror ht, ?_⟩, ⟨one .mirror, ?_⟩, ⟨rfl, rfl⟩, ?_⟩
  · rw [early .azimuth ht]
    rfl
  · rw [one .azimuth]
    rfl
  · rw [Ang.mirrorQuery_stale]
    rintro (hg | hg | ⟨hg, ht⟩)
    · rw [hg, rawAngle_nil]
    · rw [hg, one .mirror]
    · rw [hg, early .mirror ht]

/-- The consecutive records about an instant are found wherever they stand. -/
theorem bracket_between (before after : List EdgeRec) {e0 e1 : EdgeRec} {tp : Time}
    (hp : TimesAscend (before ++ e0 :: e1 :: after)) (h0 : e0.time.toNat ≤ tp.toNat) (h1 : tp.toNat < e1.time.toNat) :
    bracket (before ++ e0 :: e1 :: after) tp = some (e0, e1) := by
  induction before with
  | nil => simp [bracket, h0, h1]
  | cons a rest ih =>
    obtain ⟨-, hrest⟩ := List.pairwise_cons.1 hp
    cases rest with
    | nil =>
      have notYet : ¬ (a.time.toNat ≤ tp.toNat ∧ tp.toNat < e0.time.toNat) := by omega
      simpa [bracket, notYet] using ih hrest
    | cons b rest =>
      have hb : b.time.toNat < e0.time.toNat := (List.pairwise_cons.1 hrest).1 e0 (by simp)
      have notYet : ¬ (a.time.toNat ≤ tp.toNat ∧ tp.toNat < b.time.toNat) := by omega
      simpa [bracket, notYet] using ih hrest

/-- No record lies after the instant. -/
theorem bracket_none {h : List EdgeRec} {tp : Time} (hh : ∀ r ∈ h, r.time.toNat ≤ tp.toNat) : bracket h tp = none := by
  induction h with
  | nil => rfl
  | cons a rest ih =>
    cases rest with
    | nil => rfl
    | cons b rest =>
      have past : ¬ (a.time.toNat ≤ tp.toNat ∧ tp.toNat < b.time.toNat) := by
        have := hh b (by simp)
        omega
      rw [bracket, if_neg past]
      exact ih (fun r hr => hh r (List.mem_cons_of_mem a hr))

theorem newestTwo_append (before : List EdgeRec) (e0 e1 : EdgeRec) :
    newestTwo (before ++ [e0, e1]) = some (e0, e1) := by
  induction before with
  | nil => rfl
  | cons a rest ih =>
    cases rest with
    | nil => rfl
    | cons b rest =>
      cases rest with
      | nil => exact ih
      | cons c rest => exact ih

theorem rawAngle_between (axis : Axis) {h : List EdgeRec} {e0 e1 : EdgeRec} {tp : Time}
    (started : ∀ o ∈ h.head?, o.time.toNat ≤ tp.toNat) (hb : bracket h tp = some (e0, e1)) :
    rawAngle axis h tp = interpolate (unitOf axis) e0 e1 tp := by
  match h with
  | [] => cases hb
  | [_] => cases hb
  | o :: _ :: _ =>
    have notBefore : ¬ tp.toNat < o.time.toNat := Nat.not_lt.2 (started o rfl)
    cases axis <;> simp [rawAngle, notBefore, hb, unitOf, mirrorUnit, azimuthUnit]

/-- At or after the newest of two or more records. -/
theorem rawAngle_beyond (axis : Axis) {h : List EdgeRec} {e0 e1 : EdgeRec} {tp : Time}
    (past : ∀ r ∈ h, r.time.toNat ≤ tp.toNat) (hn : newestTwo h = some (e0, e1)) :
    rawAngle axis h tp =
      if axis = .azimuth ∧ azimuthHeld e0 e1 tp = true then holdAt (unitOf axis) e1 true false
      else extrapolate (unitOf axis) e0 e1 tp := by
  have none := bracket_none past
  match h with
  | [] => cases hn
  | [_] => cases hn
  | o :: _ :: _ =>
    have notBefore : ¬ tp.toNat < o.time.toNat := Nat.not_lt.2 (past o (by simp))
    cases axis <;> simp [rawAngle, notBefore, none, hn, unitOf, mirrorUnit, azimuthUnit]

/-! ### The fractions of R10 and R11 -/

theorem roundHalfUp_natCast (n d : Nat) : roundHalfUp (n : Int) d = ((2 * n + d) / (2 * d) : Nat) := by
  simp [roundHalfUp]

theorem clampInt_natCast (n hi : Nat) : clampInt 0 hi n = (min n hi : Nat) := by
  unfold clampInt
  split
  · omega
  · split <;> omega

theorem Dir.sign_eq (d : Dir) : d.sign = if d = .forward then 1 else -1 := by
  cases d <;> rfl

theorem interpolate_eq (u : Nat) (e0 e1 : EdgeRec) (tp : Time) (f : Nat)
    (hf : f = (2 * ((tp.toNat - e0.time.toNat) * u) + (e1.time.toNat - e0.time.toNat)) /
      (2 * (e1.time.toNat - e0.time.toNat))) :
    interpolate u e0 e1 tp = ⟨BitVec.ofInt 24 ((e0.count * u : Nat) + (if e1.dir = .forward then (f : Int) else -(f : Int))),
      some e0.turn, [e0, e1], false, false⟩ := by
  rw [interpolate, roundHalfUp_natCast, ← hf, Dir.sign_eq, angleOfInt]
  split <;> simp

theorem extrapolate_eq (u : Nat) (e0 e1 : EdgeRec) (tp : Time) :
    extrapolate u e0 e1 tp = ⟨BitVec.ofInt 24 ((e1.count * u : Nat) + (if e1.dir = .forward then 1 else -1) *
        ((min ((2 * ((tp.toNat - e1.time.toNat) * u) + (e1.time.toNat - e0.time.toNat)) /
          (2 * (e1.time.toNat - e0.time.toNat))) (u - 1) : Nat) : Int)),
      some e1.turn, [e0, e1], true, false⟩ := by
  rw [extrapolate, roundHalfUp_natCast, clampInt_natCast, Dir.sign_eq, angleOfInt]

theorem azimuthHeld_iff (e0 e1 : EdgeRec) (tp : Time) : azimuthHeld e0 e1 tp = true ↔
    25600000000 < e1.time.toNat - e0.time.toNat ∨ 25600000000 < tp.toNat - e1.time.toNat := by
  rw [azimuthHeld, Bool.or_eq_true, decide_eq_true_iff, decide_eq_true_iff, azimuthHold]

theorem angleBetweenRecords : Statement.AngleBetweenRecords := by
  rintro axis h before after e0 e1 tp u t0 t1 f rfl ascend rfl rfl h0 h1 hm ha hf
  have unit : u = unitOf axis := by
    cases axis
    · exact hm rfl
    · exact ha rfl
  have started : ∀ o ∈ (before ++ e0 :: e1 :: after).head?, o.time.toNat ≤ tp.toNat := by
    cases before with
    | nil => simpa using h0
    | cons a rest =>
      have ha : a.time.toNat < e0.time.toNat := (List.pairwise_cons.1 ascend).1 e0 (by simp)
      intro o ho
      cases ho
      omega
  rw [rawAngle_between axis started (bracket_between before after ascend h0 h1), ← unit]
  exact interpolate_eq u e0 e1 tp f hf

theorem angleBeyondTheNewest : Statement.AngleBeyondTheNewest := by
  rintro h before e0 e1 tp t0 t1 f rfl ascend rfl rfl h1 hf
  have past : ∀ r ∈ before ++ [e0, e1], r.time.toNat ≤ tp.toNat := by
    obtain ⟨-, pair, order⟩ := List.pairwise_append.1 ascend
    have h01 : e0.time.toNat < e1.time.toNat := (List.pairwise_cons.1 pair).1 e1 (by simp)
    intro r hr
    rcases List.mem_append.1 hr with hr | hr
    · have := order r hr e1 (by simp)
      omega
    · rcases List.mem_pair.1 hr with rfl | rfl <;> omega
  have beyond (axis : Axis) := rawAngle_beyond axis past (newestTwo_append before e0 e1)
  refine ⟨?_, fun held => ?_, fun near last => ?_⟩
  · rw [beyond .mirror, if_neg (by simp), extrapolate_eq, hf]
    rfl
  · rw [beyond .azimuth, if_pos ⟨rfl, (azimuthHeld_iff e0 e1 tp).2 held⟩, holdAt_eq]
    rfl
  · have free : ¬ azimuthHeld e0 e1 tp = true := fun held => by
      have := (azimuthHeld_iff e0 e1 tp).1 held
      omega
    rw [beyond .azimuth, if_neg (fun both => free both.2), extrapolate_eq, hf]
    rfl

/-! ### A mirror answer (R13, R14) -/

theorem suspectOf_iff (mark : Option (BitVec 32)) (used : List EdgeRec) :
    suspectOf mark used = true ↔ ∃ r, mark = some r ∧ ∃ y ∈ used, y.turn = r := by
  cases mark with
  | none => simp [suspectOf]
  | some r => simp only [suspectOf, List.any_eq_true, decide_eq_true_iff, Option.some.injEq, exists_eq_left']

/-- R14 with the two entries about the raw angle named. -/
theorem correctMirror_eq (table : List (BitVec 16)) (mirrorZero : Nat) (raw : Angle) (e0 e1 : Int)
    (h0 : e0 = (table.getD (raw.toNat / 65536) 0).toInt) (h1 : e1 = (table.getD ((raw.toNat / 65536 + 1) % 256) 0).toInt) :
    correctMirror table mirrorZero raw = BitVec.ofInt 24
      (raw.toNat + (e0 + (2 * ((e1 - e0) * (raw.toNat % 65536 : Nat)) + 65536) / 131072) - mirrorZero) := by
  subst h0 h1
  rfl

theorem mirrorAnswerGiven : Statement.MirrorAnswerGiven := by
  rintro g mirrorZero tp x segment offset e0 e1 corr rfl rfl rfl h0 h1 rfl
  refine ⟨correctMirror_eq _ _ _ e0 e1 h0 h1, fun r hr => ?_, fun hr => ?_, rfl, rfl, suspectOf_iff _ _, rfl⟩
  · simp [Ang.mirrorQuery, hr]
  · simp [Ang.mirrorQuery, hr]

/-- Settles O18, from the cases of `rawAngle` and the arithmetic of R10, R11 and R14. -/
theorem anglesAtAnInstant : Obligations.AnglesAtAnInstant :=
  ⟨angleBetweenRecords, angleBeyondTheNewest, mirrorAnswerGiven⟩

end Sys2Proof.Machine

namespace Sys2Proof.Machine

/-! ### The passing of time and the wrap (R1) -/

theorem time_add (t : Time) (dt : Nat) : t + BitVec.ofNat 64 dt = BitVec.ofNat 64 (t.toNat + dt) := by
  rw [BitVec.ofNat_add, BitVec.ofNat_toNat, BitVec.setWidth_eq]

theorem State.elapse_short {s : State} {dt : Nat} (h : s.tb.toNat + dt < 2 ^ 64) :
    s.elapse dt = { s with tb := BitVec.ofNat 64 (s.tb.toNat + dt) } := by
  rw [State.elapse, if_pos h, time_add]

theorem State.elapse_across {s : State} {dt : Nat} (h : 2 ^ 64 ≤ s.tb.toNat + dt) :
    s.elapse dt = State.wrapActions { s with tb := BitVec.ofNat 64 (s.tb.toNat + dt) } := by
  rw [State.elapse, if_neg (Nat.not_lt.2 h), time_add]

/-- The actions of the wrap, written out. -/
theorem State.wrapActions_eq {s u : State}
    (hu : u = (s.eca.history.filter (fun r => decide (r.state = .isOpen))).foldl State.closePulse s) :
    s.wrapActions = State.settle { u with
      eca := { u.eca with history := [], prevEmit := none }
      ang := { u.ang with
        mirror := { u.ang.mirror with history := [] }
        azimuth := { u.ang.azimuth with history := [] }
        prevIndex := none } } := by
  have every : (fun r : PulseRec => r.isOpen && true) = fun r => decide (r.state = .isOpen) := by
    funext r
    rw [Bool.and_true, PulseRec.isOpen]
  subst hu
  simp only [State.wrapActions, State.closePulses, every]
  rfl

/-- What the wrap empties and what it leaves. -/
structure Wrapped (s t : State) : Prop where
  tb : t.tb = s.tb
  ang : t.ang = { s.ang with
    mirror := { s.ang.mirror with history := [] }
    azimuth := { s.ang.azimuth with history := [] }
    prevIndex := none
    counters := t.ang.counters }
  history : t.eca.history = []
  prevEmit : t.eca.prevEmit = none
  link : t.eca.link = s.eca.link
  scn : t.scn = s.scn
  exs : t.exs = s.exs
  mask : t.lnb.mask = s.lnb.mask
  ports : SamePorts s t
  pending : t.pending = s.pending

theorem State.wrapActions_wrapped (s : State) : Wrapped s s.wrapActions := by
  rw [State.wrapActions_eq rfl]
  have closed := PulsesClosed.foldl (s.eca.history.filter (fun r => decide (r.state = .isOpen))) s
  generalize (s.eca.history.filter (fun r => decide (r.state = .isOpen))).foldl State.closePulse s = u at closed
  have kept := Kept.settle { u with
    eca := { u.eca with history := [], prevEmit := none }
    ang := { u.ang with
      mirror := { u.ang.mirror with history := [] }
      azimuth := { u.ang.azimuth with history := [] }
      prevIndex := none } }
  constructor
  case tb => rw [kept.tb, closed.tb]
  case ang => rw [kept.ang, closed.ang]
  case history => rw [kept.eca]
  case prevEmit => rw [kept.eca]
  case link => rw [kept.eca, closed.eca]
  case scn => rw [kept.scn, closed.scn]
  case exs => rw [kept.exs, closed.exs]
  case mask => rw [kept.mask, closed.mask]
  case ports => exact (SamePorts.of_prt closed.prt).trans kept.samePorts
  case pending => rw [kept.pending, closed.pending]

theorem timeTakesTheWrap : Statement.TimeTakesTheWrap := by
  intro s t dt across ht
  rw [State.elapse_across across]
  have w := State.wrapActions_wrapped { s with tb := BitVec.ofNat 64 (s.tb.toNat + dt) }
  exact ⟨State.wrapActions_eq ht, w.tb, w.history, w.prevEmit, by rw [w.ang], by rw [w.ang], by rw [w.ang],
    by rw [w.ang], w.scn, w.exs, w.ports, w.pending⟩

theorem step_idle {s : State} (queue : s.pending = []) : step s = .next (s.elapse 1) := by
  unfold step
  split
  · rfl
  · rename_i h
    rw [queue] at h
    cases h

theorem idleStepLetsTimePass : Statement.IdleStepLetsTimePass := by
  intro s queue short
  rw [step_idle queue, State.elapse, if_pos short]
  rfl

theorem timebaseWrap : Statement.TimebaseWrap := by
  intro s u t hu ht
  have wrapped : t = s.wrap := ht.trans (State.wrapActions_eq hu).symm
  have w := State.wrapActions_wrapped { s with tb := 0 }
  subst wrapped
  exact ⟨rfl, w.tb, w.history, w.prevEmit, w.link, by rw [State.wrap, w.ang], by rw [State.wrap, w.ang],
    by rw [State.wrap, w.ang], by rw [State.wrap, w.ang], by rw [State.wrap, w.ang], by rw [State.wrap, w.ang],
    by rw [State.wrap, w.ang], by rw [State.wrap, w.ang], by rw [State.wrap, w.ang], w.scn, w.exs, w.mask, w.ports,
    w.pending⟩

/-- Settles O4: the wrap is `wrapActions_eq`, and what it empties and leaves is `Wrapped`. -/
theorem timebaseRule : Obligations.TimebaseRule :=
  ⟨fun _ _ => State.elapse_short, timeTakesTheWrap, idleStepLetsTimePass, timebaseWrap⟩

end Sys2Proof.Machine

namespace Sys2Proof.Machine

/-! ### Counted edges of one axis (R3 to R7) -/

/-- A counted edge: the count realigned at an index edge, the turn stepped at an index edge and a missed index; and whether
the edge is an index fault, and ends a revolution where it is a forward one. -/
theorem AxisState.counted_eq (x : AxisState) (n : Nat) (dir : Dir) (active : Bool) {count expected : Nat}
    {index missed : Bool} (hc : count = stepCount n x.count dir) (he : expected = expectedIndex n dir)
    (hi : index = (active && x.armed)) (hm : missed = (!active && x.aligned && decide (count = expected))) :
    (x.counted n dir active).1 = ⟨if index then expected else count,
      if index || missed then stepTurn x.turn dir else x.turn, x.aligned || index, !active, x.history⟩ ∧
    (x.counted n dir active).2.isFault = (missed || (index && x.aligned && decide (count ≠ expected))) ∧
    (x.counted n dir active).2.endsRevolution = (index || missed) := by
  obtain ⟨c, turn, aligned, armed, h⟩ := x
  simp only at hc hi hm
  rw [hi, hm, hc, he]
  clear hi hm hc he
  cases active with
  | false =>
    by_cases missed : aligned = true ∧ stepCount n c dir = expectedIndex n dir
    · simp [AxisState.counted, classifyIndex, missed, IndexResult.isFault, IndexResult.endsRevolution]
    · simpa [AxisState.counted, classifyIndex, missed, IndexResult.isFault, IndexResult.endsRevolution]
        using not_and.1 missed
  | true =>
    cases armed with
    | false => simp [AxisState.counted, classifyIndex, IndexResult.isFault, IndexResult.endsRevolution]
    | true =>
      cases aligned with
      | false => simp [AxisState.counted, classifyIndex, IndexResult.isFault, IndexResult.endsRevolution]
      | true =>
        by_cases met : stepCount n c dir = expectedIndex n dir
        · simp [AxisState.counted, classifyIndex, met, IndexResult.isFault, IndexResult.endsRevolution]
        · simp [AxisState.counted, classifyIndex, met, IndexResult.isFault, IndexResult.endsRevolution]

theorem stepCount_eq (n count : Nat) (dir : Dir) :
    stepCount n count dir = if dir = .forward then (count + 1) % n else (count + n - 1) % n := by
  cases dir <;> rfl

theorem expectedIndex_eq (n : Nat) (dir : Dir) : expectedIndex n dir = if dir = .forward then 0 else n - 1 := by
  cases dir <;> rfl

theorem stepTurn_eq (turn : BitVec 32) (dir : Dir) :
    stepTurn turn dir = if dir = .forward then turn + 1 else turn - 1 := by
  cases dir <;> rfl

/-! ### Raises that stay (R183) -/

theorem EventSet.has_insert_of_has {x : EventSet} {e : EventPos} (p : EventPos) (h : EventSet.has x e = true) :
    EventSet.has (EventSet.insert x p) e = true := by
  unfold EventSet.has at h
  unfold EventSet.has EventSet.insert
  rw [BitVec.getLsbD_or, h, Bool.true_or]

theorem EventSet.has_single (p : EventPos) : EventSet.has (EventSet.single p) p = true := by
  revert p
  decide

theorem EventSet.has_insert (x : EventSet) (p : EventPos) : EventSet.has (EventSet.insert x p) p = true := by
  have single := EventSet.has_single p
  unfold EventSet.has at single
  unfold EventSet.has EventSet.insert
  rw [BitVec.getLsbD_or, single, Bool.or_true]

/-- The event is pending, or held where the controller is frozen. -/
def Atn.shows (e : EventPos) (a : Atn) : Prop :=
  if a.frozen then EventSet.has a.held e = true else EventSet.has a.pending e = true

theorem Atn.shows_raisable (e : EventPos) : Raisable (Atn.shows e) := by
  intro a p l h
  unfold Atn.raise
  split
  · exact h
  · cases frozen : a.frozen with
    | true =>
      simp only [Atn.shows, frozen, if_true] at h ⊢
      split
      · simpa using h
      · simpa using EventSet.has_insert_of_has p h
    | false =>
      simp only [Atn.shows, frozen, Bool.false_eq_true, if_false] at h ⊢
      split
      · simpa using h
      · simpa using EventSet.has_insert_of_has p h

theorem Atn.shows_raise (e : EventPos) (a : Atn) : (a.raise e .up).shows e := by
  unfold Atn.raise
  cases frozen : a.frozen with
  | true =>
    simp only [if_true]
    split
    · rename_i held
      simpa [Atn.shows, frozen] using held
    · simp [Atn.shows, EventSet.has_insert]
  | false =>
    simp only [Bool.false_eq_true, if_false]
    split
    · rename_i pending
      simpa [Atn.shows, frozen] using pending
    · simp [Atn.shows, EventSet.has_insert]

theorem raisedEverywhere_iff (e : EventPos) (t : State) :
    raisedEverywhere e t ↔ ∀ p, (t.port p).link = .up → (t.atn.get p).shows e := Iff.rfl

theorem raisedEverywhere_raiseAll (e : EventPos) (s : State) : raisedEverywhere e (s.raiseAll e) := by
  rw [raisedEverywhere_iff]
  intro p up
  have before : (s.port p).link = .up := up
  rw [State.atn_raiseAll, before]
  exact Atn.shows_raise e _

/-- What keeps links and raises keeps an event raised. -/
theorem raisedEverywhere_of_kept {e : EventPos} {s t : State} (h : raisedEverywhere e s) (ports : SamePorts s t)
    (atn : ∀ P : Atn → Prop, Raisable P → ∀ p, P (s.atn.get p) → P (t.atn.get p)) : raisedEverywhere e t := by
  rw [raisedEverywhere_iff] at h ⊢
  exact fun p up => atn _ (Atn.shows_raisable e) p (h p ((ports p).1 ▸ up))

/-! ### What the speed monitor and SCN leave of a counted mirror edge (R16 to R18) -/

/-- What the speed monitor and SCN leave alone: the mirror, the azimuth, the stall timer, the suspect mark, the index faults,
and what a report leaves alone outside ANG. -/
structure MonitorKept (s t : State) : Prop where
  mirror : t.ang.mirror = s.ang.mirror
  azimuth : t.ang.azimuth = s.ang.azimuth
  stall : t.ang.stall = s.ang.stall
  suspect : t.ang.suspect = s.ang.suspect
  indexFaults : t.ang.counters.mirrorIndexFaults = s.ang.counters.mirrorIndexFaults
  tb : t.tb = s.tb
  params : t.scn.params = s.scn.params
  mask : t.lnb.mask = s.lnb.mask
  tileArea : t.clr.tileArea = s.clr.tileArea
  ports : SamePorts s t
  pending : t.pending = s.pending
  atn : ∀ P : Atn → Prop, Raisable P → ∀ p, P (s.atn.get p) → P (t.atn.get p)

theorem MonitorKept.trans {s t u : State} (h : MonitorKept s t) (k : MonitorKept t u) : MonitorKept s u where
  mirror := k.mirror.trans h.mirror
  azimuth := k.azimuth.trans h.azimuth
  stall := k.stall.trans h.stall
  suspect := k.suspect.trans h.suspect
  indexFaults := k.indexFaults.trans h.indexFaults
  tb := k.tb.trans h.tb
  params := k.params.trans h.params
  mask := k.mask.trans h.mask
  tileArea := k.tileArea.trans h.tileArea
  ports := h.ports.trans k.ports
  pending := k.pending.trans h.pending
  atn P hP p hp := k.atn P hP p (h.atn P hP p hp)

theorem ReportKept.monitorKept {s t : State} (h : ReportKept s t) : MonitorKept s t where
  mirror := by rw [h.ang]
  azimuth := by rw [h.ang]
  stall := by rw [h.ang]
  suspect := by rw [h.ang]
  indexFaults := by rw [h.ang]
  tb := h.tb
  params := h.params
  mask := h.mask
  tileArea := h.tileArea
  ports := h.ports
  pending := h.pending
  atn := h.atn

/-- A change of ANG's own state by the speed monitor. -/
theorem MonitorKept.setAng (s : State) (g : Ang) (mirror : g.mirror = s.ang.mirror) (azimuth : g.azimuth = s.ang.azimuth)
    (stall : g.stall = s.ang.stall) (suspect : g.suspect = s.ang.suspect)
    (faults : g.counters.mirrorIndexFaults = s.ang.counters.mirrorIndexFaults) : MonitorKept s (s.setAng g) :=
  ⟨mirror, azimuth, stall, suspect, faults, rfl, rfl, rfl, rfl, .refl s, rfl, fun _ _ _ h => h⟩

theorem MonitorKept.bandLoss (s : State) (c : BandLossCause) : MonitorKept s (s.bandLoss c) :=
  (MonitorKept.setAng s s.ang.bandLoss rfl rfl rfl rfl rfl).trans (ReportKept.bandLossReport _ c).monitorKept

theorem MonitorKept.endRevolution (s : State) : MonitorKept s s.endRevolution := by
  have measured : MonitorKept s (s.setAng (s.ang.endRevolution s.scn.params s.tb).1) := by
    unfold Ang.endRevolution
    split <;> exact .setAng s _ rfl rfl rfl rfl rfl
  exact measured.trans (ReportKept.revolutionReport _ _ _).monitorKept

/-- A counted mirror edge before the speed monitor: count, index, history, stall timer, and the raise of an index fault. -/
def State.countMirror (s : State) (dir : Dir) (active : Bool) : State :=
  (s.setAng ((s.ang.mirrorEdge s.tb dir active).1.restartStall s.scn.params s.tb)).raiseIndexFault
    (s.ang.mirrorEdge s.tb dir active).2

theorem State.mirrorEdge_backward (s : State) (active : Bool) :
    s.mirrorEdge .backward active = (s.countMirror .backward active).bandLoss .reverse := rfl

theorem State.mirrorEdge_forward (s : State) (active : Bool) :
    s.mirrorEdge .forward active =
      if (s.ang.mirrorEdge s.tb .forward active).2.endsRevolution then (s.countMirror .forward active).endRevolution
      else s.countMirror .forward active := rfl

theorem MonitorKept.mirrorEdge (s : State) (dir : Dir) (active : Bool) :
    MonitorKept (s.countMirror dir active) (s.mirrorEdge dir active) := by
  cases dir with
  | backward =>
    rw [State.mirrorEdge_backward]
    exact .bandLoss _ _
  | forward =>
    rw [State.mirrorEdge_forward]
    split
    · exact .endRevolution _
    · exact (ReportKept.refl _).monitorKept

/-- The raise of an index fault changes attention controllers alone. -/
theorem State.raiseIndexFault_kept (s : State) (r : IndexResult) :
    Kept s (s.raiseIndexFault r) ∧ (r.isFault = true → raisedEverywhere evEncoder (s.raiseIndexFault r)) := by
  unfold State.raiseIndexFault
  split
  · exact ⟨.raiseAll s _, fun _ => raisedEverywhere_raiseAll _ s⟩
  · rename_i none
    exact ⟨.refl s, fun h => absurd h none⟩

theorem State.countMirror_ang (s : State) (dir : Dir) (active : Bool) :
    (s.countMirror dir active).ang = (s.ang.mirrorEdge s.tb dir active).1.restartStall s.scn.params s.tb :=
  (State.raiseIndexFault_kept _ _).1.ang

theorem takeEdge_counted (s : State) (axis : Axis) (dir : Dir) (active : Bool) :
    s.takeEdge axis (if dir = .forward then .forward else .backward) active =
      match axis with
      | .mirror => s.mirrorEdge dir active
      | .azimuth => s.azimuthEdge dir active := by
  cases dir <;> cases axis <;> rfl

/-- The mirror, the suspect mark, the stall timer and the index faults a counted mirror edge leaves for the monitor. -/
theorem State.countMirror_fields (s : State) (dir : Dir) (active : Bool) :
    (s.countMirror dir active).ang.mirror = (s.ang.mirror.counted 16384 dir active).1.record s.tb dir ∧
    (s.countMirror dir active).ang.azimuth = s.ang.azimuth ∧
    (s.countMirror dir active).ang.stall = some ⟨s.tb, s.scn.params.stallUs * 256000⟩ ∧
    (s.countMirror dir active).ang.suspect =
      (if (s.ang.mirror.counted 16384 dir active).2.isFault then some s.ang.mirror.turn else s.ang.suspect) ∧
    (s.countMirror dir active).ang.counters.mirrorIndexFaults = bump s.ang.counters.mirrorIndexFaults
      (if (s.ang.mirror.counted 16384 dir active).2.isFault then 1 else 0) := by
  rw [State.countMirror_ang]
  exact ⟨rfl, rfl, rfl, rfl, rfl⟩

theorem mirrorEdgeStatement : Statement.MirrorEdge := by
  rintro dt dir active s e count expected turn index missed fault he0 hc he hi hm hf ht
  obtain ⟨axis, isFault, -⟩ := e.ang.mirror.counted_eq 16384 dir active (hc.trans (stepCount_eq _ _ dir).symm)
    (he.trans (expectedIndex_eq 16384 dir).symm) hi hm
  rw [stepTurn_eq, ← ht] at axis
  rw [← hf] at isFault
  obtain ⟨mirror, azimuth, stall, suspect, faults⟩ := e.countMirror_fields dir active
  obtain ⟨before, raised⟩ := State.raiseIndexFault_kept
    (e.setAng ((e.ang.mirrorEdge e.tb dir active).1.restartStall e.scn.params e.tb)) (e.ang.mirrorEdge e.tb dir active).2
  have after := (MonitorKept.mirrorEdge e dir active).trans (Kept.settle _).reportKept.monitorKept
  have ports : SamePorts e (e.mirrorEdge dir active).settle := SamePorts.trans before.samePorts after.ports
  refine ⟨(e.mirrorEdge dir active).settle, ?_, ?_, after.azimuth.trans azimuth, after.stall.trans stall, ?_, ?_, ?_,
    after.tb.trans before.tb, after.params.trans (congrArg Scn.params before.scn), after.mask.trans before.mask,
    after.tileArea.trans before.tileArea, ports, after.pending.trans before.pending⟩
  · rw [he0]
    exact congrArg (fun u => Host.Outcome.next (State.settle u)) (takeEdge_counted _ .mirror dir active)
  · rw [after.mirror, mirror, axis]
    rfl
  · rw [after.suspect, suspect, isFault]
  · rw [after.indexFaults, faults, isFault]
    cases fault <;> rfl
  · intro hfault
    exact raisedEverywhere_of_kept (raised (isFault.trans hfault)) after.ports after.atn

/-! ### Counted azimuth edges (R7, R19) -/

/-- A counted azimuth edge before the span test and EXS: count, index, history and travel, and the raise of an index fault. -/
def State.countAzimuth (s : State) (dir : Dir) (active : Bool) : State :=
  (s.setAng (s.ang.azimuthEdge s.tb dir active).1).raiseIndexFault (s.ang.azimuthEdge s.tb dir active).2

theorem State.azimuthEdge_eq (s : State) (dir : Dir) (active : Bool) :
    s.azimuthEdge dir active = ((s.countAzimuth dir active).spanTest).exsTravel dir := rfl

/-- The span test leaves ANG and ECA alone, and so does EXS. -/
theorem State.spanTest_same (s : State) : s.spanTest.ang = s.ang ∧ s.spanTest.eca = s.eca := by
  unfold State.spanTest
  split
  · split <;> exact ⟨rfl, rfl⟩
  all_goals exact ⟨rfl, rfl⟩

theorem State.countAzimuth_ang (s : State) (dir : Dir) (active : Bool) :
    (s.countAzimuth dir active).ang = { s.ang with
      azimuth := (s.ang.azimuth.counted 65536 dir active).1.record s.tb dir
      travel := if dir = .forward then s.ang.travel + 1 else s.ang.travel - 1
      counters := { s.ang.counters with
        azimuthIndexFaults := bump s.ang.counters.azimuthIndexFaults
          (if (s.ang.azimuth.counted 65536 dir active).2.isFault then 1 else 0) } } := by
  rw [State.countAzimuth, (State.raiseIndexFault_kept _ _).1.ang]
  cases dir <;> rfl

theorem azimuthEdgeStatement : Statement.AzimuthEdge := by
  rintro dt dir active s e count expected turn index missed fault he0 hc he hi hm hf ht
  obtain ⟨axis, isFault, -⟩ := e.ang.azimuth.counted_eq 65536 dir active (hc.trans (stepCount_eq _ _ dir).symm)
    (he.trans (expectedIndex_eq 65536 dir).symm) hi hm
  rw [stepTurn_eq, ← ht] at axis
  rw [← hf] at isFault
  have counted := e.countAzimuth_ang dir active
  rw [axis, isFault] at counted
  obtain ⟨before, raised⟩ := State.raiseIndexFault_kept (e.setAng (e.ang.azimuthEdge e.tb dir active).1)
    (e.ang.azimuthEdge e.tb dir active).2
  have fired := ExsKept.exsTravel (e.countAzimuth dir active).spanTest dir
  have settled := Kept.settle (e.azimuthEdge dir active)
  have after : ReportKept (e.countAzimuth dir active) (e.azimuthEdge dir active).settle :=
    ((ReportKept.spanTest _).trans fired.reportKept).trans settled.reportKept
  have ang : (e.azimuthEdge dir active).settle.ang = (e.countAzimuth dir active).ang := by
    rw [settled.ang, State.azimuthEdge_eq, fired.rest]
    exact (State.spanTest_same _).1
  have eca : (e.azimuthEdge dir active).settle.eca = e.eca := by
    rw [settled.eca, State.azimuthEdge_eq, fired.rest]
    exact (State.spanTest_same _).2.trans before.eca
  have ports : SamePorts e (e.azimuthEdge dir active).settle := SamePorts.trans before.samePorts after.ports
  rw [counted] at ang
  refine ⟨(e.azimuthEdge dir active).settle, ?_, ?_, ?_, ?_, ?_, ?_, ?_, ?_, after.tb.trans before.tb,
    after.params.trans (congrArg Scn.params before.scn), eca, after.mask.trans before.mask,
    after.tileArea.trans before.tileArea, ports, after.pending.trans before.pending⟩
  · rw [he0]
    exact congrArg (fun u => Host.Outcome.next (State.settle u)) (takeEdge_counted _ .azimuth dir active)
  · rw [ang]
    rfl
  · rw [ang]
  · rw [ang]
  · rw [ang]
  · rw [ang]
  · rw [ang]
  · intro hfault
    exact raisedEverywhere_of_kept (raised (isFault.trans hfault)) after.ports after.atn

theorem edgeHistoryEntry : Statement.EdgeHistoryEntry := by
  intro h r n
  refine ⟨enterHistory_nil r, fun later room => ?_, fun later full => ?_, enterHistory_sameTime h⟩
  · simp only [List.length_append, List.length_singleton] at room
    rw [enterHistory_later h later, show h.length + 2 - 32 = 0 by omega]
    simp
  · simp only [List.length_append, List.length_singleton] at full
    rw [enterHistory_later h later, show h.length + 2 - 32 = 1 by omega]
    simp

/-- Settles O15: the edge history's entry is `enterHistory_later` and `enterHistory_sameTime`, the counted edge
`AxisState.counted_eq`, and the rest what the monitor, SCN and EXS leave alone. -/
theorem countedEdges : Obligations.CountedEdges :=
  ⟨fun _ _ _ he => by subst he; exact ⟨rfl, rfl⟩, edgeHistoryEntry, mirrorEdgeStatement, azimuthEdgeStatement⟩

end Sys2Proof.Machine

namespace Sys2Proof.Machine

/-! ### What a report makes of SCN (R48, R51) -/

theorem State.failReply_blocks (c : FaultCause) (l : List PortTag) (s : State) :
    (l.foldl (State.failReply c) s).ang = s.ang ∧ (l.foldl (State.failReply c) s).scn = s.scn := by
  induction l generalizing s with
  | nil => exact ⟨rfl, rfl⟩
  | cons o l ih => exact ih (State.failReply c s o)

/-- Entry to FAULT leaves ANG alone and gives SCN its fields of R55. -/
theorem State.enterFault_blocks (s : State) (c : FaultCause) :
    (s.enterFault c).ang = s.ang ∧ (s.enterFault c).scn = s.scn.toFault c := by
  have aborted := LnbKept.abortLine { s with scn := s.scn.toFault c, eca := s.eca.discardPulses }
  obtain ⟨ang, scn⟩ := State.failReply_blocks c s.scn.pendingReplies
    { s with scn := s.scn.toFault c, eca := s.eca.discardPulses }.abortLine
  exact ⟨ang.trans aborted.ang, scn.trans aborted.scn⟩

/-- SCN after a band-loss report, or an OUT OF BAND revolution, whose fault has this cause. -/
structure LossTaken (c : FaultCause) (s t : Scn) : Prop where
  running : s.state = .running → t.state = .fault ∧ t.cause = some c ∧ t.laser = false
  armed : s.state = .armed → t = { s with inBand := 0 }
  others : s.state = .idle ∨ s.state = .draining ∨ s.state = .fault → t = s

theorem LossTaken.of_running {c : FaultCause} {s : Scn} (h : s.state = .running) : LossTaken c s (s.toFault c) :=
  ⟨fun _ => ⟨rfl, rfl, rfl⟩, fun h' => (by rw [h] at h'; cases h'), fun h' => (by rw [h] at h'; simp at h')⟩

theorem LossTaken.of_armed {c : FaultCause} {s : Scn} (h : s.state = .armed) : LossTaken c s { s with inBand := 0 } :=
  ⟨fun h' => (by rw [h] at h'; cases h'), fun _ => rfl, fun h' => (by rw [h] at h'; simp at h')⟩

theorem LossTaken.of_others {c : FaultCause} {s : Scn} (h : s.state = .idle ∨ s.state = .draining ∨ s.state = .fault) :
    LossTaken c s s :=
  ⟨fun h' => (by rw [h'] at h; simp at h), fun h' => (by rw [h'] at h; simp at h), fun _ => rfl⟩

theorem State.bandLossReport_blocks (s : State) (c : BandLossCause) :
    (s.bandLossReport c).ang = s.ang ∧ LossTaken c.faultCause s.scn (s.bandLossReport c).scn := by
  unfold State.bandLossReport
  split
  · rename_i h
    exact ⟨rfl, .of_armed h⟩
  · rename_i h
    obtain ⟨ang, scn⟩ := s.enterFault_blocks c.faultCause
    rw [scn]
    exact ⟨ang, .of_running h⟩
  · rename_i h
    exact ⟨rfl, .of_others (.inl h)⟩
  · rename_i h
    exact ⟨rfl, .of_others (.inr (.inl h))⟩
  · rename_i h
    exact ⟨rfl, .of_others (.inr (.inr h))⟩

theorem State.bandLoss_blocks (s : State) (c : BandLossCause) :
    (s.bandLoss c).ang = s.ang.bandLoss ∧ LossTaken c.faultCause s.scn (s.bandLoss c).scn :=
  (s.setAng s.ang.bandLoss).bandLossReport_blocks c

theorem State.revolutionReport_outOfBand (s : State) (t : Time) :
    LossTaken .mirrorBand s.scn (s.revolutionReport .outOfBand t).scn := by
  unfold State.revolutionReport
  split
  · rename_i h
    exact .of_armed h
  · rename_i h
    simp only
    rw [(s.enterFault_blocks .mirrorBand).2]
    exact .of_running h
  · rename_i h
    exact .of_others (.inl h)
  · rename_i h
    exact .of_others (.inr (.inl h))
  · rename_i h
    exact .of_others (.inr (.inr h))

/-- Outside ARMED only an OUT OF BAND revolution matters. -/
theorem State.revolutionReport_unarmed {s : State} (h : s.scn.state ≠ .armed) {v : Verdict} (hv : v ≠ .outOfBand)
    (t : Time) : s.revolutionReport v t = s := by
  unfold State.revolutionReport
  split
  · rename_i armed
    exact absurd armed h
  · cases v with
    | outOfBand => exact absurd rfl hv
    | inBand => rfl
    | unmeasured => rfl
  all_goals rfl

theorem State.revolutionReport_armed {s : State} (h : s.scn.state = .armed) (v : Verdict) (t : Time) :
    s.revolutionReport v t = s.armedReport v t := by
  unfold State.revolutionReport
  rw [h]

theorem State.revolutionReport_unmeasured (s : State) (t : Time) : (s.revolutionReport .unmeasured t).scn =
    if s.scn.state = .armed then { s.scn with inBand := 0 } else s.scn := by
  by_cases h : s.scn.state = .armed
  · rw [if_pos h, State.revolutionReport_armed h]
    rfl
  · rw [if_neg h, State.revolutionReport_unarmed h (by simp)]

/-- An in-band revolution in ARMED starts again from 0 while the ranging link is DOWN, and is the first of two while it is UP
(R48). -/
theorem State.revolutionReport_inBand {s : State} (h : s.scn.state = .armed) (t : Time) :
    (s.eca.link = .down → (s.revolutionReport .inBand t).scn = { s.scn with inBand := 0 }) ∧
    (s.eca.link = .up → s.scn.inBand = 0 → (s.revolutionReport .inBand t).scn = { s.scn with inBand := 1 }) := by
  rw [State.revolutionReport_armed h]
  unfold State.armedReport
  refine ⟨fun down => ?_, fun up first => ?_⟩
  · simp only [down]
    rfl
  · simp only [up, first]
    rfl

/-! ### The end of a revolution (R17) -/

theorem Ang.endRevolution_unmeasured {g : Ang} (h : g.prevIndex = none) (q : ScanParams) (t : Time) :
    ∃ g', g.endRevolution q t = (g', .unmeasured) ∧ g'.tm = g.tm ∧ g'.band = g.band := by
  unfold Ang.endRevolution
  rw [h]
  exact ⟨_, rfl, rfl, rfl⟩

theorem verdictOf_eq (q : ScanParams) (tm : Time) : verdictOf q tm =
    if ((tm.toNat : Int) - (q.nominalMs * 256000000 : Nat)).natAbs ≤ q.toleranceUs * 256000 then .inBand else .outOfBand :=
  rfl

theorem Ang.endRevolution_inBand {g : Ang} {t0 : Time} (h : g.prevIndex = some t0) {q : ScanParams} {t : Time}
    (hv : verdictOf q (t - t0) = .inBand) :
    ∃ g', g.endRevolution q t = (g', .inBand) ∧ g'.tm = some (t - t0) ∧ g'.band = .inBand := by
  unfold Ang.endRevolution
  rw [h]
  simp only [hv]
  exact ⟨_, rfl, rfl, rfl⟩

theorem Ang.endRevolution_outOfBand {g : Ang} {t0 : Time} (h : g.prevIndex = some t0) {q : ScanParams} {t : Time}
    (hv : verdictOf q (t - t0) = .outOfBand) :
    ∃ g', g.endRevolution q t = (g', .outOfBand) ∧ g'.tm = some (t - t0) ∧ g'.band = .outOfBand := by
  unfold Ang.endRevolution
  rw [h]
  simp only [hv]
  exact ⟨_, rfl, rfl, rfl⟩

theorem State.endRevolution_eq {s : State} {g : Ang} {v : Verdict}
    (h : s.ang.endRevolution s.scn.params s.tb = (g, v)) :
    s.endRevolution = (s.setAng g).revolutionReport v s.tb := by
  unfold State.endRevolution
  rw [h]

/-- What SCN's part of a revolution's end leaves of the measures ANG has taken. -/
theorem State.endRevolution_ang {s : State} {g : Ang} {v : Verdict}
    (h : s.ang.endRevolution s.scn.params s.tb = (g, v)) :
    s.endRevolution.ang.prevIndex = g.prevIndex ∧ s.endRevolution.ang.tm = g.tm ∧ s.endRevolution.ang.band = g.band := by
  have kept := ReportKept.revolutionReport (s.setAng g) v s.tb
  rw [State.endRevolution_eq h, kept.ang]
  exact ⟨rfl, rfl, rfl⟩

/-! ### The statements -/

/-- The parts of a counted mirror edge that the speed monitor and SCN start from. -/
theorem State.countMirror_rest (s : State) (dir : Dir) (active : Bool) :
    (s.countMirror dir active).tb = s.tb ∧ (s.countMirror dir active).scn = s.scn ∧
    (s.countMirror dir active).eca = s.eca ∧ (s.countMirror dir active).ang.prevIndex = s.ang.prevIndex ∧
    (s.countMirror dir active).ang.tm = s.ang.tm ∧ (s.countMirror dir active).ang.band = s.ang.band ∧
    (s.countMirror dir active).ang.counters.mirrorBandLosses = s.ang.counters.mirrorBandLosses := by
  obtain ⟨kept, -⟩ := State.raiseIndexFault_kept
    (s.setAng ((s.ang.mirrorEdge s.tb dir active).1.restartStall s.scn.params s.tb)) (s.ang.mirrorEdge s.tb dir active).2
  rw [State.countMirror_ang]
  exact ⟨kept.tb, kept.scn, kept.eca, rfl, rfl, rfl, rfl⟩

/-- ANG after a quadrature error: the axis's counter, the armed flag where its index input is inactive, and on the mirror the
stall timer. -/
theorem State.takeEdge_bothChannels (s : State) (axis : Axis) (active : Bool) :
    s.takeEdge axis .bothChannels active = (s.raiseAll evEncoder).setAng { s.ang with
      mirror := { s.ang.mirror with armed := s.ang.mirror.armed || (decide (axis = .mirror) && !active) }
      azimuth := { s.ang.azimuth with armed := s.ang.azimuth.armed || (decide (axis = .azimuth) && !active) }
      stall := if axis = .mirror then some ⟨s.tb, s.scn.params.stallUs * 256000⟩ else s.ang.stall
      counters := { s.ang.counters with
        mirrorQuadratureErrors := if axis = .mirror then bump s.ang.counters.mirrorQuadratureErrors 1
          else s.ang.counters.mirrorQuadratureErrors
        azimuthQuadratureErrors := if axis = .azimuth then bump s.ang.counters.azimuthQuadratureErrors 1
          else s.ang.counters.azimuthQuadratureErrors } } := by
  cases axis with
  | mirror => cases active <;> simp <;> rfl
  | azimuth => cases active <;> simp <;> rfl

theorem quadratureErrorStatement : Statement.QuadratureError := by
  rintro dt axis active s e he
  have kept := Kept.settle (e.takeEdge axis .bothChannels active)
  rw [State.takeEdge_bothChannels] at kept
  have raised := raisedEverywhere_raiseAll evEncoder e
  refine ⟨(e.takeEdge axis .bothChannels active).settle, ?_, ?_⟩
  · rw [he]
    rfl
  · rw [State.takeEdge_bothChannels, kept.ang]
    exact ⟨rfl, rfl, rfl, rfl, rfl, rfl, raisedEverywhere_of_kept raised kept.samePorts kept.atn, kept.tb, kept.scn,
      kept.eca, kept.pending⟩

theorem stallExpiryStatement : Statement.StallExpiry := by
  rintro dt r s e he running due
  have timed : timerDue e.ang.stall e.tb = true := by
    rw [running]
    exact decide_eq_true due
  obtain ⟨ang, scn⟩ := State.bandLoss_blocks { e with ang := { e.ang with stall := none } } .stall
  have kept := Kept.settle (State.bandLoss { e with ang := { e.ang with stall := none } } .stall)
  have monitor := MonitorKept.bandLoss { e with ang := { e.ang with stall := none } } .stall
  refine ⟨(State.bandLoss { e with ang := { e.ang with stall := none } } .stall).settle, ?_, kept.ang.trans ang, ?_, ?_,
    ?_, kept.tb.trans monitor.tb, kept.pending.trans monitor.pending⟩
  · show Host.Outcome.next (s.elapse dt).stallExpiry = _
    rw [← he, State.stallExpiry, if_pos timed]
  · rw [kept.scn]
    exact scn.running
  · rw [kept.scn]
    exact scn.armed
  · rw [kept.scn]
    exact scn.others

theorem reverseEdgeStatement : Statement.ReverseEdge := by
  rintro dt active s e rfl
  generalize he : s.elapse dt = e
  obtain ⟨-, scn0, -, prevIndex, tm, band, losses⟩ := e.countMirror_rest .backward active
  obtain ⟨ang, scn⟩ := (e.countMirror .backward active).bandLoss_blocks .reverse
  have kept := Kept.settle ((e.countMirror .backward active).bandLoss .reverse)
  rw [scn0] at scn
  refine ⟨((e.countMirror .backward active).bandLoss .reverse).settle, ?_, ?_, ?_, ?_, ?_, ?_, ?_, ?_⟩
  · rw [← he]
    rfl
  · rw [kept.ang, ang]
    rfl
  · rw [kept.ang, ang]
    rfl
  · rw [kept.ang, ang]
    exact tm
  · rw [kept.ang, ang, ← losses]
    rfl
  · rw [kept.scn]
    exact scn.running
  · rw [kept.scn]
    exact scn.armed
  · rw [kept.scn]
    exact scn.others

/-- A forward edge ends a revolution when it is an index edge or a missed index. -/
theorem endsRevolution_forward (g : Ang) (t : Time) (active : Bool) :
    (g.mirrorEdge t .forward active).2.endsRevolution =
      if active then g.mirror.armed else g.mirror.aligned && decide ((g.mirror.count + 1) % 16384 = 0) := by
  obtain ⟨-, -, ends⟩ := g.mirror.counted_eq 16384 .forward active rfl rfl rfl rfl
  refine ends.trans ?_
  cases active with
  | false => rfl
  | true => simp

/-- The end of a measured revolution beyond the tolerance. -/
theorem State.endRevolution_beyond {s : State} {t0 : Time} (h : s.ang.prevIndex = some t0)
    (hv : verdictOf s.scn.params (s.tb - t0) = .outOfBand) :
    s.endRevolution.ang.tm = some (s.tb - t0) ∧ s.endRevolution.ang.band = .outOfBand ∧
      LossTaken .mirrorBand s.scn s.endRevolution.scn := by
  obtain ⟨g, report, tm, band⟩ := Ang.endRevolution_outOfBand h hv
  obtain ⟨-, tm', band'⟩ := State.endRevolution_ang report
  refine ⟨tm'.trans tm, band'.trans band, ?_⟩
  rw [State.endRevolution_eq report]
  exact State.revolutionReport_outOfBand (s.setAng g) _

/-- The end of a measured revolution within the tolerance. -/
theorem State.endRevolution_within {s : State} {t0 : Time} (h : s.ang.prevIndex = some t0)
    (hv : verdictOf s.scn.params (s.tb - t0) = .inBand) :
    s.endRevolution.ang.tm = some (s.tb - t0) ∧ s.endRevolution.ang.band = .inBand ∧
      (s.scn.state = .armed → s.eca.link = .down → s.endRevolution.scn = { s.scn with inBand := 0 }) ∧
      (s.scn.state = .armed → s.eca.link = .up → s.scn.inBand = 0 →
        s.endRevolution.scn = { s.scn with inBand := 1 }) ∧
      (s.scn.state ≠ .armed → s.endRevolution.scn = s.scn) := by
  obtain ⟨g, report, tm, band⟩ := Ang.endRevolution_inBand h hv
  obtain ⟨-, tm', band'⟩ := State.endRevolution_ang report
  have armedReport (armed : s.scn.state = .armed) := State.revolutionReport_inBand (s := s.setAng g) armed s.tb
  refine ⟨tm'.trans tm, band'.trans band, ?_⟩
  rw [State.endRevolution_eq report]
  refine ⟨fun armed => (armedReport armed).1, fun armed => (armedReport armed).2, fun unarmed => ?_⟩
  rw [State.revolutionReport_unarmed (s := s.setAng g) unarmed (by simp)]
  rfl

/-- The end of a revolution with no index time before it. -/
theorem State.endRevolution_first {s : State} (h : s.ang.prevIndex = none) :
    s.endRevolution.ang.tm = s.ang.tm ∧ s.endRevolution.ang.band = s.ang.band ∧
      s.endRevolution.scn = if s.scn.state = .armed then { s.scn with inBand := 0 } else s.scn := by
  obtain ⟨g, report, tm, band⟩ := Ang.endRevolution_unmeasured h s.scn.params s.tb
  obtain ⟨-, tm', band'⟩ := State.endRevolution_ang report
  refine ⟨tm'.trans tm, band'.trans band, ?_⟩
  rw [State.endRevolution_eq report]
  exact State.revolutionReport_unmeasured (s.setAng g) _

/-- The index edge's time becomes the previous index time, whatever the verdict. -/
theorem State.endRevolution_prevIndex (s : State) : s.endRevolution.ang.prevIndex = some s.tb := by
  have time : (s.ang.endRevolution s.scn.params s.tb).1.prevIndex = some s.tb := by
    unfold Ang.endRevolution
    split <;> rfl
  exact (State.endRevolution_ang rfl).1.trans time

theorem revolutionEndsStatement : Statement.RevolutionEnds := by
  rintro dt active ends s e he hends
  obtain ⟨tb, scn, eca, prevIndex, tm, band, -⟩ := e.countMirror_rest .forward active
  have kept := Kept.settle (e.mirrorEdge .forward active)
  have result : (e.mirrorEdge .forward active) =
      if ends then (e.countMirror .forward active).endRevolution else e.countMirror .forward active := by
    rw [State.mirrorEdge_forward, endsRevolution_forward, ← hends]
  refine ⟨(e.mirrorEdge .forward active).settle, by rw [he]; rfl, ?_⟩
  rw [kept.ang, kept.scn, result, ← scn, ← tb, ← eca, ← prevIndex, ← tm, ← band]
  generalize e.countMirror .forward active = m
  cases ends with
  | false => exact ⟨fun _ => ⟨rfl, rfl, rfl, rfl⟩, by simp, by simp, by simp⟩
  | true =>
    refine ⟨by simp, fun _ => m.endRevolution_prevIndex, fun _ => State.endRevolution_first, ?_⟩
    rintro t0 off - measured rfl
    have verdict := verdictOf_eq m.scn.params (m.tb - t0)
    refine ⟨?_, fun beyond => ?_, fun within => ?_⟩
    · by_cases within : (((m.tb - t0).toNat : Int) - (m.scn.params.nominalMs * 256000000 : Nat)).natAbs ≤
        m.scn.params.toleranceUs * 256000
      · exact (State.endRevolution_within measured (verdict.trans (if_pos within))).1
      · exact (State.endRevolution_beyond measured (verdict.trans (if_neg within))).1
    · obtain ⟨-, band, taken⟩ := State.endRevolution_beyond measured (verdict.trans (if_neg (Nat.not_le.2 beyond)))
      exact ⟨band, taken.armed, taken.running, taken.others⟩
    · exact (State.endRevolution_within measured (verdict.trans (if_pos within))).2

/-- Settles O16: the quadrature error, the stall, the reverse edge and the end of a revolution, the last two on top of the
counted edge of `countMirror`. -/
theorem quadratureAndSpeedMonitor : Obligations.QuadratureAndSpeedMonitor :=
  ⟨quadratureErrorStatement, stallExpiryStatement, revolutionEndsStatement, reverseEdgeStatement⟩

end Sys2Proof.Machine

namespace Sys2Proof.Machine

/-! ### Records that arrive while the ranging link is UP (R21, R22) -/

theorem State.onRecord_up {s : State} (up : s.eca.link = .up) (k : State → State) : s.onRecord k = k s := by
  unfold State.onRecord
  rw [up]

theorem exec_emit_running {dt : Nat} {s e : State} (he : e = s.elapse dt) (up : e.eca.link = .up)
    (running : e.scn.state = .running) (id : BitVec 16) (time : Time) :
    exec (.emit dt id time) s = .next (e.testEmit id time).settle := by
  show Host.Outcome.next ((s.elapse dt).onRecord fun u => (u.takeEmit id time).settle) = _
  rw [← he, State.onRecord_up up, State.takeEmit, running]

theorem exec_emit_outside {dt : Nat} {s e : State} (he : e = s.elapse dt) (up : e.eca.link = .up)
    (outside : e.scn.state ≠ .running) (id : BitVec 16) (time : Time) :
    exec (.emit dt id time) s = .next (State.settle { e with eca := e.eca.countEmitFault }) := by
  show Host.Outcome.next ((s.elapse dt).onRecord fun u => (u.takeEmit id time).settle) = _
  rw [← he, State.onRecord_up up, State.takeEmit]
  cases state : e.scn.state with
  | running => exact absurd state outside
  | idle => rfl
  | armed => rfl
  | draining => rfl
  | fault => rfl

theorem exec_echo_active {dt : Nat} {s e : State} (he : e = s.elapse dt) (up : e.eca.link = .up)
    (active : e.scn.state = .running ∨ e.scn.state = .draining) (ref : BitVec 16) (d : BitVec 28) (amp : BitVec 16)
    (width : BitVec 8) (sat : Bool) :
    exec (.echo dt ref d amp width sat) s = .next (e.processEcho ⟨ref, d, amp, width, sat⟩) := by
  show Host.Outcome.next ((s.elapse dt).onRecord fun u => u.takeEcho ⟨ref, d, amp, width, sat⟩) = _
  rw [← he, State.onRecord_up up, State.takeEcho]
  rcases active with state | state <;> rw [state]

theorem exec_echo_quiet {dt : Nat} {s e : State} (he : e = s.elapse dt) (up : e.eca.link = .up)
    (quiet : e.scn.state = .idle ∨ e.scn.state = .armed ∨ e.scn.state = .fault) (ref : BitVec 16) (d : BitVec 28)
    (amp : BitVec 16) (width : BitVec 8) (sat : Bool) :
    exec (.echo dt ref d amp width sat) s = .next { e with eca := e.eca.countOrphan } := by
  show Host.Outcome.next ((s.elapse dt).onRecord fun u => u.takeEcho ⟨ref, d, amp, width, sat⟩) = _
  rw [← he, State.onRecord_up up, State.takeEcho]
  rcases quiet with state | state | state <;> rw [state]

theorem exec_faultRecord_up {dt : Nat} {s e : State} (he : e = s.elapse dt) (up : e.eca.link = .up) (code : Byte) :
    exec (.faultRecord dt code) s = .next (e.takeFaultRecord code).settle := by
  show Host.Outcome.next ((s.elapse dt).onRecord fun u => (u.takeFaultRecord code).settle) = _
  rw [← he, State.onRecord_up up]

/-! ### Reports of ranging faults (R39, R40, R51, R54, R55) -/

theorem State.closeLine_openLine (s : State) (c : CloseCause) : (s.closeLine c).lnb.openLine = none := by
  unfold State.closeLine
  split
  · assumption
  · rfl

/-- CHECK replies change ports alone. -/
theorem State.failReplies_rest (c : FaultCause) (l : List PortTag) (s : State) :
    l.foldl (State.failReply c) s = { s with prt := (l.foldl (State.failReply c) s).prt } := by
  induction l generalizing s with
  | nil => rfl
  | cons o l ih => exact ih (State.failReply c s o)

/-- Entry to FAULT discards ECA's pulses, closes the open line and leaves EXS alone. -/
theorem State.enterFault_discards (s : State) (c : FaultCause) :
    (s.enterFault c).eca = s.eca.discardPulses ∧ (s.enterFault c).lnb.openLine = none ∧
      (s.enterFault c).exs = s.exs := by
  have aborted := LnbKept.abortLine { s with scn := s.scn.toFault c, eca := s.eca.discardPulses }
  have replied := State.failReplies_rest c s.scn.pendingReplies
    { s with scn := s.scn.toFault c, eca := s.eca.discardPulses }.abortLine
  exact ⟨(congrArg State.eca replied).trans aborted.eca,
    (congrArg (fun u => u.lnb.openLine) replied).trans (State.closeLine_openLine _ _),
    (congrArg State.exs replied).trans aborted.exs⟩

/-- What a ranging-fault report leaves alone, whether or not the scan faults: of ECA only the pulses and their discard change,
and of the other blocks what a report changes, without ANG's travel and EXS. -/
structure RangingReported (s t : State) : Prop where
  kept : ReportKept s t
  ang : t.ang = s.ang
  exs : t.exs = s.exs
  eca : t.eca = { s.eca with
    history := t.eca.history
    prevEmit := t.eca.prevEmit
    counters := { s.eca.counters with pulsesDiscarded := t.eca.counters.pulsesDiscarded } }

theorem RangingReported.refl (s : State) : RangingReported s s := ⟨.refl s, rfl, rfl, rfl⟩

theorem RangingReported.enterFault (s : State) (c : FaultCause) : RangingReported s (s.enterFault c) := by
  obtain ⟨eca, -, exs⟩ := s.enterFault_discards c
  refine ⟨.enterFault s c, (s.enterFault_blocks c).1, exs, ?_⟩
  rw [eca]
  rfl

theorem RangingReported.settle {s t : State} (h : RangingReported s t) : RangingReported s t.settle := by
  have settled := Kept.settle t
  refine ⟨h.kept.trans settled.reportKept, settled.ang.trans h.ang, settled.exs.trans h.exs, ?_⟩
  rw [settled.eca]
  exact h.eca

theorem State.linkReport_active {s : State} (h : s.scn.state = .running ∨ s.scn.state = .draining) :
    s.linkReport = s.enterFault .rangingLink := by
  unfold State.linkReport
  rcases h with h | h <;> rw [h]

theorem State.linkReport_quiet {s : State} (h : s.scn.state = .idle ∨ s.scn.state = .armed ∨ s.scn.state = .fault) :
    s.linkReport = s := by
  unfold State.linkReport
  rcases h with h | h | h <;> rw [h]

theorem RangingReported.linkReport (s : State) : RangingReported s s.linkReport := by
  unfold State.linkReport
  split
  · exact .enterFault s _
  · exact .enterFault s _
  all_goals exact .refl s

theorem State.recordReport_running {s : State} (h : s.scn.state = .running) (code : Byte) :
    s.recordReport code = s.enterFault (.rangingRecord code) := by
  unfold State.recordReport
  rw [h]

theorem State.recordReport_outside {s : State} (h : s.scn.state ≠ .running) (code : Byte) : s.recordReport code = s := by
  unfold State.recordReport
  split
  · rename_i running
    exact absurd running h
  all_goals rfl

theorem RangingReported.recordReport (s : State) (code : Byte) : RangingReported s (s.recordReport code) := by
  unfold State.recordReport
  split
  · exact .enterFault s _
  all_goals exact .refl s

/-! ### Training, loss and FAULT records (R2, R21, R40) -/

/-- The loss of the link as ECA takes it, before SCN takes the report. -/
def State.countLoss (s : State) : State :=
  { s with eca := { s.eca with
      link := .down
      lastFault := some .link
      counters := { s.eca.counters with rangingLinkLosses := bump s.eca.counters.rangingLinkLosses 1 } } }.raiseAll evRanging

theorem State.rangingLoss_up {s : State} (up : s.eca.link = .up) : s.rangingLoss = s.countLoss.linkReport.settle := by
  unfold State.rangingLoss
  rw [up]
  rfl

/-- A FAULT record as ECA takes it, before SCN takes the report. -/
def State.countFaultRecord (s : State) (code : Byte) : State :=
  { s with eca := { s.eca with
      lastFault := some (.record code)
      counters := { s.eca.counters with rangingFaultRecords := bump s.eca.counters.rangingFaultRecords 1 } } }.raiseAll
    evRanging

theorem State.takeFaultRecord_eq (s : State) (code : Byte) :
    s.takeFaultRecord code = (s.countFaultRecord code).recordReport code := rfl

theorem rangingLinkTrained {dt : Nat} {s e : State} (he : e = s.elapse dt) (down : e.eca.link = .down) :
    exec (.rangingLinkUp dt) s = .next { e with eca := { e.eca with link := .up, countSent := some e.tb } } := by
  show Host.Outcome.next (s.elapse dt).rangingUp = _
  rw [← he, State.rangingUp, down]

theorem rangingLinkStatement : Statement.RangingLink := by
  refine ⟨fun dt s e => rangingLinkTrained, fun dt s e he up => ?_⟩
  have reported := (RangingReported.linkReport e.countLoss).settle
  have raised : raisedEverywhere evRanging e.countLoss := raisedEverywhere_raiseAll _ _
  have settled := Kept.settle e.countLoss.linkReport
  refine ⟨e.countLoss.linkReport.settle, ?_, by rw [reported.eca]; rfl, by rw [reported.eca]; rfl,
    by rw [reported.eca]; rfl, raisedEverywhere_of_kept raised reported.kept.ports reported.kept.atn, fun active => ?_,
    fun quiet => ?_, reported.kept.tb, reported.ang, reported.exs, reported.kept.pending⟩
  · rw [← State.rangingLoss_up up, he]
    rfl
  · obtain ⟨eca, line, -⟩ := e.countLoss.enterFault_discards .rangingLink
    rw [settled.scn, settled.eca, settled.openLine, State.linkReport_active (s := e.countLoss) active,
      (e.countLoss.enterFault_blocks .rangingLink).2, eca]
    exact ⟨rfl, rfl, rfl, rfl, rfl, line⟩
  · rw [settled.scn, settled.eca, State.linkReport_quiet (s := e.countLoss) quiet]
    exact ⟨rfl, rfl⟩

theorem faultRecordTaken : Statement.FaultRecordTaken := by
  intro dt code s e he up
  have reported := (RangingReported.recordReport (e.countFaultRecord code) code).settle
  have raised : raisedEverywhere evRanging (e.countFaultRecord code) := raisedEverywhere_raiseAll _ _
  have settled := Kept.settle ((e.countFaultRecord code).recordReport code)
  refine ⟨((e.countFaultRecord code).recordReport code).settle, ?_, by rw [reported.eca]; rfl, by rw [reported.eca]; rfl,
    by rw [reported.eca]; exact up, raisedEverywhere_of_kept raised reported.kept.ports reported.kept.atn,
    fun running => ?_, fun outside => ?_, reported.kept.tb, reported.ang, reported.exs, reported.kept.pending⟩
  · rw [exec_faultRecord_up he up, State.takeFaultRecord_eq]
  · rw [settled.scn, State.recordReport_running (s := e.countFaultRecord code) running,
      ((e.countFaultRecord code).enterFault_blocks _).2]
    exact ⟨rfl, rfl, rfl⟩
  · rw [settled.scn, settled.eca, State.recordReport_outside (s := e.countFaultRecord code) outside]
    exact ⟨rfl, rfl⟩

/-- Settles O19: what both reports leave alone is `RangingReported`, and what they change is entry to FAULT. -/
theorem rangingLinkAndFaultRecord : Obligations.RangingLinkAndFaultRecord := ⟨rangingLinkStatement, faultRecordTaken⟩

end Sys2Proof.Machine

namespace Sys2Proof.Machine

/-! ### The point of a closing pulse (R36, R37) -/

theorem pointFormed : Statement.PointFormed := by
  rintro s r x p g rfl rfl rfl
  refine ⟨fun handed => ?_, fun bare drop => ?_⟩
  · have offered : (decide (r.echoes = []) && decide (s.scn.params.noReturnPolicy = .drop)) = false := by
      rcases handed with echoes | keep
      · simp [echoes]
      · simp [keep]
    simp only [State.closePulse, formPoint, List.length_eq_zero_iff, offered]
    rfl
  · simp only [State.closePulse, formPoint, bare, drop]
    rfl

/-- Of ECA's counters the close of pulses changes NO RETURN DROPS alone. -/
theorem State.closePulse_ecaCounters (s : State) (r : PulseRec) : (s.closePulse r).eca.counters =
    { s.eca.counters with noReturnDrops := (s.closePulse r).eca.counters.noReturnDrops } := by
  unfold State.closePulse
  simp only
  split
  · rfl
  · rw [(LnbKept.takePoint _ _).eca]

theorem State.closePulses_ecaCounters (l : List PulseRec) (s : State) : (l.foldl State.closePulse s).eca.counters =
    { s.eca.counters with noReturnDrops := (l.foldl State.closePulse s).eca.counters.noReturnDrops } := by
  induction l generalizing s with
  | nil => rfl
  | cons r l ih =>
    rw [List.foldl_cons, ih, s.closePulse_ecaCounters r]

/-! ### The time test and the class of an EMIT (R25, R26) -/

theorem State.testEmit_early {s : State} {q : PrevEmit} (hq : s.eca.prevEmit = some q) {t : Time}
    (early : t.toNat ≤ q.time.toNat) (id : BitVec 16) :
    s.testEmit id t = { s with eca := s.eca.countEmitFault }.raiseAll evRanging := by
  unfold State.testEmit
  rw [hq, emitTooEarly, if_pos (decide_eq_true early)]

/-- Past the time test the class decides. -/
theorem emitTooEarly_later {q : PrevEmit} {t : Time} (later : q.time.toNat < t.toNat) :
    emitTooEarly (some q) t = false := decide_eq_false (Nat.not_le.2 later)

theorem emitClass_gap {q : PrevEmit} {id : BitVec 16} (least : 2 ≤ (id - q.id).toNat)
    (most : (id - q.id).toNat ≤ 32768) : emitClass (some q) id = .gap ((id - q.id).toNat - 1) := by
  have ne0 : idDistance id q.id ≠ 0 := by unfold idDistance; omega
  have ne1 : idDistance id q.id ≠ 1 := by unfold idDistance; omega
  have near : idDistance id q.id ≤ 32768 := most
  simp only [emitClass, if_neg ne0, if_neg ne1, if_pos near]
  rfl

theorem emitClass_break {q : PrevEmit} {id : BitVec 16} (far : 32768 < (id - q.id).toNat) :
    emitClass (some q) id = .idBreak := by
  have ne0 : idDistance id q.id ≠ 0 := by unfold idDistance; omega
  have ne1 : idDistance id q.id ≠ 1 := by unfold idDistance; omega
  have beyond : ¬ idDistance id q.id ≤ 32768 := Nat.not_le.2 far
  simp only [emitClass, if_neg ne0, if_neg ne1, if_neg beyond]

theorem State.testEmit_repeated {s : State} {q : PrevEmit} (hq : s.eca.prevEmit = some q) {t : Time}
    (later : q.time.toNat < t.toNat) :
    s.testEmit q.id t = { s with eca := s.eca.countEmitFault }.raiseAll evRanging := by
  have repeated : emitClass (some q) q.id = .repeated := by simp [emitClass, idDistance]
  simp only [State.testEmit, hq, emitTooEarly_later later, repeated]
  rfl

theorem State.testEmit_first {s : State} (hq : s.eca.prevEmit = none) (id : BitVec 16) (t : Time) :
    s.testEmit id t = s.enterEmit false id t := by
  unfold State.testEmit
  rw [hq]
  rfl

theorem State.testEmit_inSequence {s : State} {q : PrevEmit} (hq : s.eca.prevEmit = some q) {id : BitVec 16} {t : Time}
    (later : q.time.toNat < t.toNat) (step : (id - q.id).toNat = 1) : s.testEmit id t = s.enterEmit false id t := by
  have inSequence : emitClass (some q) id = .inSequence := by simp [emitClass, idDistance, step]
  simp only [State.testEmit, hq, emitTooEarly_later later, inSequence]
  rfl

theorem State.testEmit_gap {s : State} {q : PrevEmit} (hq : s.eca.prevEmit = some q) {id : BitVec 16} {t : Time}
    (later : q.time.toNat < t.toNat) (least : 2 ≤ (id - q.id).toNat) (most : (id - q.id).toNat ≤ 32768) :
    s.testEmit id t = { s with eca := { s.eca with counters := { s.eca.counters with
      pulseGaps := bump s.eca.counters.pulseGaps ((id - q.id).toNat - 1) } } }.enterEmit false id t := by
  have gap := emitClass_gap least most
  simp only [State.testEmit, hq, emitTooEarly_later later, gap]
  rfl

theorem State.testEmit_break {s : State} {q : PrevEmit} (hq : s.eca.prevEmit = some q) {id : BitVec 16} {t : Time}
    (later : q.time.toNat < t.toNat) (far : 32768 < (id - q.id).toNat) :
    s.testEmit id t = (({ s with eca := { s.eca with counters := { s.eca.counters with
      idBreaks := bump s.eca.counters.idBreaks 1 } } } : State).raiseAll evRanging).enterEmit true id t := by
  have idBreak := emitClass_break far
  simp only [State.testEmit, hq, emitTooEarly_later later, idBreak]
  rfl

/-! ### The entry of an EMIT (R27) -/

/-- The entry of an EMIT, written out: the pulses it closes, and then the history without what step 2 takes out, with the new
record. -/
theorem State.enterEmit_eq {s u : State} {isBreak : Bool} {id : BitVec 16} (t : Time)
    (hu : u = (s.eca.history.filter
      (fun r => r.isOpen && closedBy isBreak id s.scn.params.zone r)).foldl State.closePulse s) :
    s.enterEmit isBreak id t = { u with eca := { u.eca with
      history := (s.eca.history.map (fun r =>
          if r.isOpen && closedBy isBreak id s.scn.params.zone r then r.close else r)).filter (keptBy isBreak id)
        ++ [⟨id, t, .isOpen, [], false, false⟩]
      prevEmit := some ⟨id, t⟩ } } := by
  rw [← State.closePulses_history, hu]
  rfl

/-- The EMIT passes the time test and is no break, and from `e` to `base` a gap has counted the ids skipped and nothing else
has changed. -/
def SkipsCounted (id : BitVec 16) (time : Time) (e base : State) : Prop :=
  (e.eca.prevEmit = none ∧ base = e) ∨ ∃ q, e.eca.prevEmit = some q ∧ q.time.toNat < time.toNat ∧
    (((id - q.id).toNat = 1 ∧ base = e) ∨ (2 ≤ (id - q.id).toNat ∧ (id - q.id).toNat ≤ 32768 ∧
      base = { e with eca := { e.eca with counters := { e.eca.counters with
        pulseGaps := bump e.eca.counters.pulseGaps ((id - q.id).toNat - 1) } } }))

theorem SkipsCounted.entered {id : BitVec 16} {time : Time} {e base : State} (h : SkipsCounted id time e base) :
    e.testEmit id time = base.enterEmit false id time ∧ base.eca.history = e.eca.history ∧ base.scn = e.scn := by
  rcases h with ⟨first, rfl⟩ | ⟨q, hq, later, ⟨step, rfl⟩ | ⟨least, most, rfl⟩⟩
  · exact ⟨State.testEmit_first first id time, rfl, rfl⟩
  · exact ⟨State.testEmit_inSequence hq later step, rfl, rfl⟩
  · exact ⟨State.testEmit_gap hq later least most, rfl, rfl⟩

theorem SkipsCounted.pulsesClosed {id : BitVec 16} {time : Time} {e base : State} (h : SkipsCounted id time e base) :
    PulsesClosed e base := by
  rcases h with ⟨-, rfl⟩ | ⟨q, -, -, ⟨-, rfl⟩ | ⟨-, -, rfl⟩⟩
  · exact .refl _
  · exact .refl _
  · exact ⟨rfl, rfl, rfl, rfl, rfl, rfl, rfl, rfl⟩

theorem SkipsCounted.pulseGaps {id : BitVec 16} {time : Time} {e base : State} (h : SkipsCounted id time e base)
    {q : PrevEmit} (hq : e.eca.prevEmit = some q) (gap : 2 ≤ (id - q.id).toNat) :
    base.eca.counters.pulseGaps = bump e.eca.counters.pulseGaps ((id - q.id).toNat - 1) := by
  rcases h with ⟨first, -⟩ | ⟨q', hq', -, step⟩
  · rw [first] at hq
    cases hq
  · rw [hq] at hq'
    cases hq'
    rcases step with ⟨one, -⟩ | ⟨-, -, rfl⟩
    · omega
    · rfl

theorem SkipsCounted.exists_of_step {id : BitVec 16} {time : Time} {e : State} (step : e.eca.prevEmit = none ∨
      ∃ q, e.eca.prevEmit = some q ∧ q.time.toNat < time.toNat ∧ 1 ≤ (id - q.id).toNat ∧ (id - q.id).toNat ≤ 32768) :
    ∃ base : State, SkipsCounted id time e base := by
  rcases step with first | ⟨q, hq, later, least, most⟩
  · exact ⟨e, .inl ⟨first, rfl⟩⟩
  · by_cases one : (id - q.id).toNat = 1
    · exact ⟨e, .inr ⟨q, hq, later, .inl ⟨one, rfl⟩⟩⟩
    · exact ⟨_, .inr ⟨q, hq, later, .inr ⟨by omega, most, rfl⟩⟩⟩

theorem emitClosesPulses : Statement.EmitClosesPulses := by
  intro dt id time s e base t he up running hbase ht
  obtain ⟨taken, history, scn⟩ := SkipsCounted.entered hbase
  rw [exec_emit_running he up running, taken]
  rw [← history, ← scn] at ht ⊢
  rw [State.enterEmit_eq time ht]
  rfl

theorem idBreakTaken : Statement.IdBreak := by
  intro dt id time q s e base t he up running hq later far hbase ht
  rw [exec_emit_running he up running, State.testEmit_break hq later far, ← hbase]
  have every : (fun r : PulseRec => r.isOpen && closedBy true id base.scn.params.zone r) =
      fun r => decide (r.state = .isOpen) := by
    funext r
    simp [closedBy, PulseRec.isOpen]
  rw [State.enterEmit_eq (u := t) time (by rw [every, ht, hbase]; rfl), filter_keptBy_break]
  rfl

/-! ### EMIT records (R22, R25 to R27) -/

theorem emitEntered : Statement.EmitEntered := by
  intro dt id time s e he up running step
  obtain ⟨base, counted⟩ := SkipsCounted.exists_of_step step
  obtain ⟨u, hu⟩ : ∃ u : State, u = (e.eca.history.filter (fun r => decide (r.state = .isOpen) &&
    decide (e.scn.params.zone < (id - r.id).toNat))).foldl State.closePulse base := ⟨_, rfl⟩
  have closed : PulsesClosed e u := by
    rw [hu]
    exact counted.pulsesClosed.trans (.foldl _ base)
  have gapsKept : u.eca.counters.pulseGaps = base.eca.counters.pulseGaps := by
    rw [hu, State.closePulses_ecaCounters]
  refine ⟨_, emitClosesPulses dt id time s e base u he up running counted hu, ?_⟩
  rw [(Kept.settle _).eca, (Kept.settle _).tb, (Kept.settle _).scn, (Kept.settle _).ang, (Kept.settle _).exs,
    (Kept.settle _).pending]
  refine ⟨rfl, rfl, fun q hq gap => gapsKept.trans (counted.pulseGaps hq gap), closed.tb, closed.scn, closed.sameCapture.mirror,
    closed.sameCapture.azimuth, closed.exs, ?_, closed.pending⟩
  exact SamePorts.trans (fun p => SamePorts.of_prt closed.prt p) (Kept.settle _).samePorts

theorem repeatedId : Statement.RepeatedId := by
  intro dt time q s e he up running hq later
  rw [exec_emit_running he up running, State.testEmit_repeated hq later]
  rfl

theorem emitOutsideRunning : Statement.EmitOutsideRunning := fun _ id time _ _ he up outside =>
  exec_emit_outside he up outside id time

/-- Settles O21: an EMIT entered and an id break are `State.enterEmit_eq`, with what the close of pulses leaves alone. -/
theorem emitTaken : Obligations.EmitTaken := ⟨emitEntered, repeatedId, idBreakTaken, emitOutsideRunning⟩

/-- An EMIT at or before the previous EMIT's time changes one counter and raises RANGING. -/
theorem emitDiscarded {dt : Nat} {s e : State} {q : PrevEmit} {time : Time} (he : e = s.elapse dt)
    (up : e.eca.link = .up) (running : e.scn.state = .running) (hq : e.eca.prevEmit = some q)
    (early : time.toNat ≤ q.time.toNat) (id : BitVec 16) : ∃ t : State, exec (.emit dt id time) s = .next t ∧
      t.eca = e.eca.countEmitFault ∧ raisedEverywhere evRanging t ∧ SameScan { e with eca := t.eca } t ∧
      t.exs = e.exs ∧ SamePorts e t := by
  have settled := Kept.settle (({ e with eca := e.eca.countEmitFault } : State).raiseAll evRanging)
  have raised := raisedEverywhere_raiseAll evRanging { e with eca := e.eca.countEmitFault }
  refine ⟨(({ e with eca := e.eca.countEmitFault } : State).raiseAll evRanging).settle, ?_, settled.eca,
    raisedEverywhere_of_kept raised settled.samePorts settled.atn,
    ⟨settled.tb, settled.ang, rfl, settled.scn, settled.pending⟩, settled.exs, settled.samePorts⟩
  rw [exec_emit_running he up running, State.testEmit_early hq early]

/-- The first EMIT of a scan is entered and is no EMIT fault. -/
theorem emitFirst {dt : Nat} {s e : State} (he : e = s.elapse dt) (up : e.eca.link = .up)
    (running : e.scn.state = .running) (first : e.eca.prevEmit = none) (id : BitVec 16) (time : Time) :
    ∃ t : State, exec (.emit dt id time) s = .next t ∧ t.eca.prevEmit = some ⟨id, time⟩ ∧
      t.eca.counters.emitFaults = e.eca.counters.emitFaults := by
  refine ⟨_, emitClosesPulses dt id time s e e _ he up running (.inl ⟨first, rfl⟩) rfl, ?_⟩
  rw [(Kept.settle _).eca]
  exact ⟨rfl, (congrArg EcaCounters.emitFaults (State.closePulses_ecaCounters _ e)).trans rfl⟩

/-- Settles O20: the discard and the first EMIT, and the order `PulseInv` keeps below the previous EMIT. -/
theorem emitNotLaterIsDiscarded : Obligations.EmitNotLaterIsDiscarded := by
  intro dt id time s e he up running
  refine ⟨fun q hq early => emitDiscarded he up running hq early id, fun first => emitFirst he up running first id time,
    ?_⟩
  rintro ⟨-, -, unsent, order, -⟩ later r hr
  cases hq : e.eca.prevEmit with
  | none =>
    rw [unsent hq] at hr
    cases hr
  | some q =>
    have below : PulseOrder q e.eca.history := order q hq
    exact Nat.lt_of_le_of_lt (below.2 r hr).1 (later q hq)

/-! ### The end of the drain (R38, R54, R72) -/

/-- ECA's part of the drain's end, written out. -/
theorem State.drainPulses_eq {s t : State}
    (ht : t = (s.eca.history.filter (fun x => decide (x.state = .isOpen))).foldl State.closePulse s) :
    s.drainPulses = State.drainMark { t with eca := { t.eca with history := [], prevEmit := none } } := by
  have every : (fun r : PulseRec => r.isOpen && true) = fun r => decide (r.state = .isOpen) := by
    funext r
    rw [Bool.and_true, PulseRec.isOpen]
  subst ht
  simp only [State.drainPulses, State.closePulses, every]
  rfl

/-- LNB after the drain mark: the open line is closed, and its close notice is the last item. -/
theorem State.drainMark_lnb (s : State) : s.drainMark.lnb = { s.lnb with
    openLine := none
    spent := none
    fifo := s.lnb.fifo ++ (s.lnb.openLine.map fun h => FifoItem.closeNotice h.lineNumber h).toList } := by
  unfold State.drainMark State.closeLine
  cases line : s.lnb.openLine with
  | none =>
    show { s.lnb with spent := none } = _
    simp [line]
  | some h => rfl

/-- DONE replies change ports alone. -/
theorem State.stopDones_rest (l : List PortTag) (s : State) :
    l.foldl State.stopDone s = { s with prt := (l.foldl State.stopDone s).prt } := by
  induction l generalizing s with
  | nil => rfl
  | cons o l ih => exact ih (s.stopDone o)

/-- What SCN adds to the drain's end leaves ANG, ECA and LNB as ECA and LNB left them. -/
theorem State.completeDrain_blocks (s : State) : s.completeDrain.ang = s.drainPulses.ang ∧
    s.completeDrain.eca = s.drainPulses.eca ∧ s.completeDrain.lnb = s.drainPulses.lnb := by
  have rest := State.stopDones_rest s.scn.stopReplies { s.drainPulses with
    scn := { s.drainPulses.scn with state := .idle, drain := none, stopReplies := [] } }
  exact ⟨(congrArg State.ang rest).trans rfl, (congrArg State.eca rest).trans rfl, (congrArg State.lnb rest).trans rfl⟩

theorem exec_drainTimerExpiry_due {dt : Nat} {r : TimerRun} {s e : State} (he : e = s.elapse dt)
    (draining : e.scn.state = .draining) (running : e.scn.drain = some r) (due : r.length ≤ (e.tb - r.start).toNat) :
    exec (.drainTimerExpiry dt) s = .next e.completeDrain.settle := by
  have expires : (decide (e.scn.state = .draining) && timerDue e.scn.drain e.tb) = true := by
    rw [running, draining]
    exact decide_eq_true due
  show Host.Outcome.next (if decide ((s.elapse dt).scn.state = .draining) &&
    timerDue (s.elapse dt).scn.drain (s.elapse dt).tb then (s.elapse dt).completeDrain.settle else s.elapse dt) = _
  rw [← he, if_pos expires]

theorem drainClosesPulses : Statement.DrainClosesPulses := by
  intro dt r s e t he draining running due ht
  obtain ⟨ang, eca, lnb⟩ := e.completeDrain_blocks
  rw [State.drainPulses_eq ht] at ang eca lnb
  have mark := LnbKept.drainMark { t with eca := { t.eca with history := [], prevEmit := none } }
  rw [State.drainMark_lnb] at lnb
  refine ⟨e.completeDrain, exec_drainTimerExpiry_due he draining running due, ang.trans mark.ang, eca.trans mark.eca, ?_⟩
  rw [lnb]
  refine ⟨rfl, rfl, rfl, rfl, fun closed => ?_, fun h opened => ?_⟩
  · simp [closed]
  · simp [opened]

/-- Settles O23: the point of a closing pulse, and the pulses that `State.enterEmit_eq` and `State.drainPulses_eq` close. -/
theorem pulseCloses : Obligations.PulseCloses := ⟨pointFormed, emitClosesPulses, drainClosesPulses⟩

end Sys2Proof.Machine

namespace Sys2Proof.Machine

/-! ### The reference and the target of an echo (R28) -/

theorem findPulse_of_unique {h : List PulseRec} {x : PulseRec} (mem : x ∈ h) (unique : ∀ z ∈ h, z.id = x.id → z = x) :
    findPulse h x.id = some x := by
  cases found : findPulse h x.id with
  | none => exact absurd (List.find?_eq_none.1 found x mem) (by simp)
  | some z => rw [unique z (List.mem_of_find?_eq_some found) (by simpa using List.find?_some found)]

theorem findPulse_absent {h : List PulseRec} {id : BitVec 16} (absent : ∀ y ∈ h, y.id ≠ id) : findPulse h id = none :=
  List.find?_eq_none.2 (by simpa using absent)

theorem findPulse_first {before after : List PulseRec} {x : PulseRec} (absent : ∀ y ∈ before, y.id ≠ x.id) :
    findPulse (before ++ x :: after) x.id = some x := by
  have skipped : before.find? (fun r => decide (r.id = x.id)) = none := findPulse_absent absent
  rw [findPulse, List.find?_append, skipped]
  simp

/-- An echo with an OPEN target is judged against it. -/
theorem judgeEcho_open {q : ScanParams} {h : List PulseRec} {x : EchoRec} {reference target : PulseRec}
    (hr : findPulse h x.reference = some reference) (ht : findPulse h (targetId x.reference q.zone) = some target)
    (isOpen : target.state = .isOpen) : judgeEcho q h x = judgeTarget q x reference target := by
  have opened : target.isOpen = true := decide_eq_true isOpen
  simp only [judgeEcho, hr, ht, opened, if_true]

/-- An echo with no reference, no target or a CLOSED target is an orphan. -/
theorem judgeEcho_orphan {q : ScanParams} {h : List PulseRec} {x : EchoRec}
    (missing : findPulse h x.reference = none ∨ findPulse h (targetId x.reference q.zone) = none ∨
      ∃ t, findPulse h (targetId x.reference q.zone) = some t ∧ t.state = .isClosed) : judgeEcho q h x = .orphan := by
  unfold judgeEcho
  split
  · rename_i reference target hr ht
    rcases missing with none | none | ⟨t, found, isClosed⟩
    · rw [hr] at none
      cases none
    · rw [ht] at none
      cases none
    · rw [ht] at found
      cases found
      simp [PulseRec.isOpen, isClosed]
  · rfl

/-! ### The range of an echo and the tests on it (R29 to R35) -/

/-- R30 with its rounding and its clamps in one expression each. -/
theorem rangeOf_eq {total offset scale q r : Nat} {near far : Bool}
    (hq : q = (2 * ((total - offset) * scale) + 1048576) / 2097152) (hnear : near = decide (total ≤ offset))
    (hfar : far = (!near && decide (16777215 < q))) (hr : r = if near then 0 else min q 16777215) :
    rangeOf total offset scale = (r, near, far) := by
  have quotient : (2 * ((total - offset) * scale) + 1048576) / (2 * 1048576) = q := hq.symm
  unfold rangeOf
  simp only [quotient, maxRange]
  subst hr hfar hnear
  by_cases within : total ≤ offset
  · simp [within]
  · by_cases beyond : 16777215 < q
    · simp [within, beyond, Nat.min_eq_right beyond.le]
    · simp [within, beyond, Nat.min_eq_left (Nat.not_lt.1 beyond)]

section Judged

variable {q : ScanParams} {x : EchoRec} {reference target : PulseRec} {r : Nat} {near far : Bool}

theorem judgeTarget_outOfWindow
    (ranged : rangeOf (totalDelay x.delay reference target) q.rangeOffset q.rangeScale = (r, near, far))
    (out : r < q.nearLimit ∨ q.farLimit < r) : judgeTarget q x reference target = .outOfWindow := by
  simp [judgeTarget, ranged, out]

theorem judgeTarget_qualityDrop
    (ranged : rangeOf (totalDelay x.delay reference target) q.rangeOffset q.rangeScale = (r, near, far))
    (least : q.nearLimit ≤ r) (most : r ≤ q.farLimit) (policy : q.qualityPolicy = .drop)
    (poor : isWeak x.amplitude q.weakThreshold = true ∨ x.saturated = true) :
    judgeTarget q x reference target = .qualityDrop := by
  simp [judgeTarget, ranged, least, most, policy, poor]

/-- What the order and the capacity of the echo list make of an echo that passes the window and the quality policy. -/
theorem judgeTarget_passed
    (ranged : rangeOf (totalDelay x.delay reference target) q.rangeOffset q.rangeScale = (r, near, far))
    (least : q.nearLimit ≤ r) (most : r ≤ q.farLimit)
    (fine : q.qualityPolicy = .drop → isWeak x.amplitude q.weakThreshold = false ∧ x.saturated = false) :
    (∀ z, target.echoes.getLast? = some z → r ≤ z.range.toNat →
      judgeTarget q x reference target = .orderFault target) ∧
    (∀ z, target.echoes.getLast? = some z → z.range.toNat < r → 4 ≤ target.echoes.length →
      judgeTarget q x reference target = .overflow target) ∧
    ((∀ z, target.echoes.getLast? = some z → z.range.toNat < r) → target.echoes.length < 4 →
      judgeTarget q x reference target = .kept target ⟨BitVec.ofNat 24 r, x.amplitude, x.width, near, far,
        isWeak x.amplitude q.weakThreshold, x.saturated⟩) := by
  have inWindow : ¬ ((decide (r < q.nearLimit) || decide (q.farLimit < r)) = true) := by
    simp [least, most]
  have notDropped :
      ¬ (((isWeak x.amplitude q.weakThreshold || x.saturated) && decide (q.qualityPolicy = .drop)) = true) := by
    by_cases policy : q.qualityPolicy = .drop
    · simp [fine policy]
    · simp [policy]
  unfold judgeTarget
  rw [ranged]
  simp only [if_neg inWindow, if_neg notDropped]
  refine ⟨fun z last near => ?_, fun z last beyond full => ?_, fun beyond room => ?_⟩
  · simp only [last, if_pos near]
  · have atCapacity : echoCapacity ≤ target.echoes.length := full
    simp only [last, if_neg (Nat.not_le.2 beyond), if_pos atCapacity]
  · cases last : target.echoes.getLast? with
    | none => rfl
    | some z =>
      have belowCapacity : ¬ echoCapacity ≤ target.echoes.length := Nat.not_le.2 room
      simp only [if_neg (Nat.not_le.2 (beyond z last)), if_neg belowCapacity]

end Judged

/-! ### ECHO records (R22, R28 to R35) -/

theorem echoJudged : Statement.EchoJudged := by
  intro dt ref d amp width sat s e x y total q r near far weak he up active hx uniqueX target isOpen hy uniqueY reference
    htotal hq hnear hfar hr hweak
  have refFound : findPulse e.eca.history ref = some y := by
    rw [← reference]
    exact findPulse_of_unique hy uniqueY
  have targetFound : findPulse e.eca.history (targetId ref e.scn.params.zone) = some x := by
    rw [targetId, ← target]
    exact findPulse_of_unique hx uniqueX
  have judged : judgeEcho e.scn.params e.eca.history ⟨ref, d, amp, width, sat⟩ =
    judgeTarget e.scn.params ⟨ref, d, amp, width, sat⟩ y x := judgeEcho_open refFound targetFound isOpen
  have ranged : rangeOf (totalDelay d y x) e.scn.params.rangeOffset e.scn.params.rangeScale = (r, near, far) := by
    rw [totalDelay, maxDelay, ← htotal]
    exact rangeOf_eq hq hnear hfar hr
  have weakness : isWeak amp e.scn.params.weakThreshold = weak := hweak.symm
  rw [exec_echo_active he up active, State.processEcho, judged]
  refine ⟨fun out => ?_, fun least most policy poor => ?_, fun least most fine => ?_⟩
  · rw [judgeTarget_outOfWindow ranged out]
  · rw [judgeTarget_qualityDrop ranged least most policy (weakness ▸ poor)]
  · obtain ⟨orderFault, overflow, kept⟩ := judgeTarget_passed (x := ⟨ref, d, amp, width, sat⟩) ranged least most
      (weakness ▸ fine)
    refine ⟨fun z last nearer => ?_, fun z last beyond full => ?_, fun beyond room => ?_⟩
    · rw [orderFault z last nearer]
    · rw [overflow z last beyond full]
      rfl
    · rw [kept beyond room, weakness]
      rfl

/-- A change of the records of one id, where one record has it. -/
theorem map_at_id {before after : List PulseRec} {x : PulseRec} (absentBefore : ∀ y ∈ before, y.id ≠ x.id)
    (absentAfter : ∀ y ∈ after, y.id ≠ x.id) (f : PulseRec → PulseRec) :
    (before ++ x :: after).map (fun p => if p.id = x.id then f p else p) = before ++ f x :: after := by
  have same (l : List PulseRec) (absent : ∀ y ∈ l, y.id ≠ x.id) :
      l.map (fun p => if p.id = x.id then f p else p) = l :=
    (List.map_congr_left fun y hy => if_neg (absent y hy)).trans (List.map_id l)
  rw [List.map_append, List.map_cons, same before absentBefore, same after absentAfter, if_pos rfl]

/-- An echo kept at zone 0 is one judged with its reference as its target. -/
theorem echoKept : Statement.EchoKept := by
  intro dt ref d amp width sat s e before after x r near far weak he up active zone history absentBefore absentAfter hid
    isOpen room ascending hweak above below hnear hfar least most fine
  subst hid
  have unique : ∀ z ∈ e.eca.history, z.id = x.id → z = x := by
    rw [history]
    intro z hz same
    rcases List.mem_append.1 hz with hz | hz
    · exact absurd same (absentBefore z hz)
    · rcases List.mem_cons.1 hz with rfl | hz
      · rfl
      · exact absurd same (absentAfter z hz)
  have mem : x ∈ e.eca.history := by simp [history]
  have total : d.toNat = min (d.toNat + (x.time - x.time).toNat) 268435455 := by
    have bound := d.isLt
    have none : (x.time - x.time).toNat = 0 := by simp
    omega
  have range : r = if near then 0 else
      min ((2 * ((d.toNat - e.scn.params.rangeOffset) * e.scn.params.rangeScale) + 1048576) / 2097152) 16777215 := by
    by_cases within : d.toNat ≤ e.scn.params.rangeOffset
    · rw [below within, hnear, decide_eq_true within, if_pos rfl]
    · rw [above (Nat.not_le.1 within), hnear, decide_eq_false within, if_neg Bool.false_ne_true]
  obtain ⟨-, -, passed⟩ := echoJudged dt x.id d amp width sat s e x x d.toNat _ r near far weak he up active mem unique
    (by simp [zone]) isOpen mem unique rfl total rfl hnear hfar range hweak
  obtain ⟨-, -, kept⟩ := passed least most fine
  rw [kept (fun z last => ascending z (List.mem_of_getLast? last)) room, history, map_at_id absentBefore absentAfter]

theorem orphanEcho : Statement.OrphanEcho := by
  intro dt ref d amp width sat s e target he up htarget missing
  by_cases active : e.scn.state = .running ∨ e.scn.state = .draining
  · have orphan : judgeEcho e.scn.params e.eca.history ⟨ref, d, amp, width, sat⟩ = .orphan := by
      apply judgeEcho_orphan
      show findPulse _ ref = none ∨ findPulse _ (ref - BitVec.ofNat 16 e.scn.params.zone) = none ∨
        ∃ t, findPulse _ (ref - BitVec.ofNat 16 e.scn.params.zone) = some t ∧ _
      rw [← htarget]
      rcases missing with idle | armed | fault | noReference | noTarget | ⟨before, after, x, history, absent, hid, isClosed⟩
      · simp [idle] at active
      · simp [armed] at active
      · simp [fault] at active
      · exact .inl (findPulse_absent noReference)
      · exact .inr (.inl (findPulse_absent noTarget))
      · subst hid
        rw [history]
        exact .inr (.inr ⟨x, findPulse_first absent, isClosed⟩)
    rw [exec_echo_active he up active, State.processEcho, orphan]
    rfl
  · have quiet : e.scn.state = .idle ∨ e.scn.state = .armed ∨ e.scn.state = .fault := by
      cases state : e.scn.state with
      | running => exact absurd (.inl state) active
      | draining => exact absurd (.inr state) active
      | idle => exact .inl rfl
      | armed => exact .inr (.inl rfl)
      | fault => exact .inr (.inr rfl)
    exact exec_echo_quiet he up quiet ref d amp width sat

/-- Settles O22: the tests of `judgeTarget_passed` on a range that `rangeOf_eq` gives; an echo kept at zone 0 is one case of it. -/
theorem echoTaken : Obligations.EchoTaken := ⟨echoKept, echoJudged, orphanEcho⟩

end Sys2Proof.Machine

namespace Sys2Proof.Machine

/-! ### The rules of LNB's operations (R67 to R71) -/

theorem fifoPoints_append (f g : List FifoItem) : fifoPoints (f ++ g) = fifoPoints f + fifoPoints g := List.countP_append

theorem fifoNotices_append (f g : List FifoItem) : fifoNotices (f ++ g) = fifoNotices f + fifoNotices g :=
  List.countP_append

theorem State.closeLine_none {s : State} (line : s.lnb.openLine = none) (c : CloseCause) : s.closeLine c = s := by
  rw [State.closeLine, line]

theorem State.closeLine_some {s : State} {h : LineHeader} (line : s.lnb.openLine = some h) (c : CloseCause) :
    s.closeLine c = { s with
      rng := (s.closeLine c).rng
      lnb := { s.lnb with
        openLine := none
        spent := if c.spends then some h.revolution else s.lnb.spent
        fifo := s.lnb.fifo ++ [.closeNotice h.lineNumber { h with flags := h.flags.atClose c }] } } := by
  unfold State.closeLine
  rw [line]
  rfl

theorem State.closeLine_lnb {s : State} {h : LineHeader} (line : s.lnb.openLine = some h) (c : CloseCause) :
    (s.closeLine c).lnb = { s.lnb with
      openLine := none
      spent := if c.spends then some h.revolution else s.lnb.spent
      fifo := s.lnb.fifo ++ [.closeNotice h.lineNumber { h with flags := h.flags.atClose c }] } :=
  congrArg State.lnb (State.closeLine_some line c)

theorem State.closeLine_atn (s : State) (c : CloseCause) : (s.closeLine c).atn = s.atn := by
  unfold State.closeLine
  split <;> rfl

theorem State.openLine_eq (s : State) (rev : BitVec 32) : s.openLine rev = { s with
    rng := (s.openLine rev).rng
    lnb := { s.lnb with
      lineCounter := s.lnb.lineCounter + 1
      fifo := s.lnb.fifo ++ [.openNotice (s.lnb.lineCounter + 1)]
      openLine := some (freshHeader (s.lnb.lineCounter + 1) s.scn.session rev) } } := rfl

/-- The header `h` once its point has entered the FIFO. -/
def LineHeader.entered (h : LineHeader) : LineHeader := { h with pointCount := h.pointCount + 1 }

/-- The header `h` once its point has been dropped at the FIFO. -/
def LineHeader.dropped (h : LineHeader) : LineHeader :=
  { h with fifoDropped := h.fifoDropped + 1, flags := { h.flags with pointsDropped := true } }

theorem State.offerPoint_room {s : State} (room : fifoPoints s.lnb.fifo < 512) (h : LineHeader) (p : Point) :
    s.offerPoint h p = (s.putItem (.point h.lineNumber p)).setOpenLine h.entered := if_pos room

/-- The state with the dropped point counted, before LOST is raised. -/
def State.countDropped (s : State) (h : LineHeader) : State := { s with lnb := { s.lnb with
  openLine := some h.dropped
  counters := { s.lnb.counters with fifoDrops := bump s.lnb.counters.fifoDrops 1 } } }

theorem State.offerPoint_full {s : State} (full : ¬ fifoPoints s.lnb.fifo < 512) (h : LineHeader) (p : Point) :
    s.offerPoint h p = if h.flags.pointsDropped then s.countDropped h else (s.countDropped h).raiseAll evLost :=
  if_neg full

theorem State.offerPoint_lnb_room {s : State} (room : fifoPoints s.lnb.fifo < 512) (h : LineHeader) (p : Point) :
    (s.offerPoint h p).lnb =
      { s.lnb with openLine := some h.entered, fifo := s.lnb.fifo ++ [.point h.lineNumber p] } := by
  rw [State.offerPoint_room room]
  rfl

theorem State.offerPoint_lnb_full {s : State} (full : ¬ fifoPoints s.lnb.fifo < 512) (h : LineHeader) (p : Point) :
    (s.offerPoint h p).lnb = { s.lnb with
      openLine := some h.dropped
      counters := { s.lnb.counters with fifoDrops := bump s.lnb.counters.fifoDrops 1 } } := by
  rw [State.offerPoint_full full]
  split <;> rfl

theorem State.acceptPoint_next {h : LineHeader} (more : h.accepted + 1 ≠ 16384) (s : State) (x : FormedPoint) :
    s.acceptPoint h x = s.offerPoint (h.acceptPoint x) x.point := if_neg more

theorem State.acceptPoint_last {h : LineHeader} (last : h.accepted + 1 = 16384) (s : State) (x : FormedPoint) :
    s.acceptPoint h x = (s.offerPoint (h.acceptPoint x) x.point).closeLine .truncated := if_pos last

/-! ### The bounds of LNB's open line and of the Point FIFO (R62, R68, R69) -/

/-- Going from `s` to `t` does not break the invariant of the Point FIFO, the open line and the line number counter. -/
def KeepsLine (s t : State) : Prop := LineInv s → LineInv t

theorem KeepsLine.refl (s : State) : KeepsLine s s := id

theorem KeepsLine.trans {s t u : State} (h : KeepsLine s t) (k : KeepsLine t u) : KeepsLine s u := k ∘ h

/-- Nothing the invariant speaks of grows: the open line and the counter are the same, items only leave the FIFO. -/
structure LineKept (s t : State) : Prop where
  openLine : t.lnb.openLine = s.lnb.openLine
  lineCounter : t.lnb.lineCounter = s.lnb.lineCounter
  fifo : t.lnb.fifo <:+ s.lnb.fifo

theorem LineKept.of_fields {s t : State} (openLine : t.lnb.openLine = s.lnb.openLine)
    (lineCounter : t.lnb.lineCounter = s.lnb.lineCounter) (fifo : t.lnb.fifo = s.lnb.fifo) : LineKept s t :=
  ⟨openLine, lineCounter, fifo ▸ List.suffix_refl _⟩

theorem LineKept.of_lnb {s t : State} (h : t.lnb = s.lnb) : LineKept s t := by
  apply LineKept.of_fields <;> rw [h]

theorem LineKept.refl (s : State) : LineKept s s := .of_lnb rfl

theorem LineKept.trans {s t u : State} (h : LineKept s t) (k : LineKept t u) : LineKept s u :=
  ⟨k.openLine.trans h.openLine, k.lineCounter.trans h.lineCounter, k.fifo.trans h.fifo⟩

theorem Kept.lineKept {s t : State} (h : Kept s t) : LineKept s t := ⟨h.openLine, h.lineCounter, h.fifo⟩

theorem ExsKept.lineKept {s t : State} (h : ExsKept s t) : LineKept s t := .of_lnb (by rw [h.rest])

theorem LineKept.settle {s t : State} (h : LineKept s t) : LineKept s t.settle := h.trans (Kept.settle t).lineKept

theorem LineKept.foldl {α : Type} {f : State → α → State} (hf : ∀ s a, LineKept s (f s a)) (l : List α) (s : State) :
    LineKept s (l.foldl f s) := by
  induction l generalizing s with
  | nil => exact .refl s
  | cons a l ih => exact (hf s a).trans (ih _)

theorem LineKept.keeps {s t : State} (h : LineKept s t) : KeepsLine s t := by
  rintro ⟨points, notices, accepted, counter⟩
  have points' : fifoPoints t.lnb.fifo ≤ fifoPoints s.lnb.fifo := h.fifo.sublist.countP_le
  have notices' : fifoNotices t.lnb.fifo ≤ fifoNotices s.lnb.fifo := h.fifo.sublist.countP_le
  rw [← h.openLine] at notices accepted
  rw [← h.lineCounter] at counter
  exact ⟨points'.trans points, by omega, accepted, counter⟩

theorem KeepsLine.of_lnb {s t : State} (h : t.lnb = s.lnb) : KeepsLine s t := (LineKept.of_lnb h).keeps

theorem KeepsLine.settle {s t : State} (h : KeepsLine s t) : KeepsLine s t.settle :=
  h.trans (Kept.settle t).lineKept.keeps

theorem KeepsLine.foldl {α : Type} {f : State → α → State} (hf : ∀ s a, KeepsLine s (f s a)) (l : List α) (s : State) :
    KeepsLine s (l.foldl f s) := by
  induction l generalizing s with
  | nil => exact .refl s
  | cons a l ih => exact (hf s a).trans (ih _)

/-! ### Points and closes keep the bounds -/

/-- A line's close spends the room kept for its close notice, and leaves no line whose points could be too many. -/
theorem LineInv.closed {s : State} {h : LineHeader} (line : s.lnb.openLine = some h)
    (points : fifoPoints s.lnb.fifo ≤ 512) (notices : fifoNotices s.lnb.fifo + 1 ≤ 64)
    (counter : s.lnb.lineCounter ≤ 4294967295) (c : CloseCause) : LineInv (s.closeLine c) := by
  unfold LineInv
  rw [State.closeLine_lnb line, fifoPoints_append, fifoNotices_append]
  exact ⟨points, notices, nofun, counter⟩

theorem KeepsLine.closeLine (s : State) (c : CloseCause) : KeepsLine s (s.closeLine c) := by
  rintro ⟨points, notices, accepted, counter⟩
  cases line : s.lnb.openLine with
  | none =>
    rw [State.closeLine_none line]
    exact ⟨points, notices, accepted, counter⟩
  | some h =>
    rw [line] at notices
    exact .closed line points notices counter c

/-- An offered point is one more accepted point of its line, and enters the FIFO only below 512 points. -/
theorem State.offerPoint_bounds (s : State) (h : LineHeader) (p : Point) (points : fifoPoints s.lnb.fifo ≤ 512) :
    (∃ h', (s.offerPoint h p).lnb.openLine = some h' ∧ h'.accepted = h.accepted + 1) ∧
    fifoPoints (s.offerPoint h p).lnb.fifo ≤ 512 ∧
    fifoNotices (s.offerPoint h p).lnb.fifo = fifoNotices s.lnb.fifo ∧
    (s.offerPoint h p).lnb.lineCounter = s.lnb.lineCounter := by
  by_cases room : fifoPoints s.lnb.fifo < 512
  · rw [State.offerPoint_lnb_room room, fifoPoints_append, fifoNotices_append]
    exact ⟨⟨_, rfl, Nat.add_right_comm _ _ _⟩, room, rfl, rfl⟩
  · rw [State.offerPoint_lnb_full room]
    exact ⟨⟨_, rfl, rfl⟩, points, rfl, rfl⟩

theorem KeepsLine.acceptPoint {s : State} {h : LineHeader} (line : s.lnb.openLine = some h) (x : FormedPoint) :
    KeepsLine s (s.acceptPoint h x) := by
  rintro ⟨points, notices, accepted, counter⟩
  have below : h.accepted < 16384 := accepted h line
  obtain ⟨⟨h', line', accepted'⟩, points', notices', counter'⟩ := s.offerPoint_bounds (h.acceptPoint x) x.point points
  rw [line] at notices
  rw [← notices'] at notices
  rw [← counter'] at counter
  by_cases last : h.accepted + 1 = 16384
  · rw [State.acceptPoint_last last]
    exact .closed line' points' notices counter .truncated
  · rw [State.acceptPoint_next last]
    refine ⟨points', by rw [line']; exact notices, fun k hk => ?_, counter⟩
    have same : h' = k := Option.some.inj (line'.symm.trans hk)
    have count : k.accepted = h.accepted + 1 := same ▸ accepted'
    show k.accepted < 16384
    omega

theorem KeepsLine.openLine {s : State} (numbered : s.lnb.lineCounter ≠ 4294967295)
    (room : fifoNotices s.lnb.fifo ≤ 62) (rev : BitVec 32) : KeepsLine s (s.openLine rev) := by
  rintro ⟨points, -, -, counter⟩
  rw [State.openLine_eq]
  refine ⟨by rw [fifoPoints_append]; exact points, ?_, ?_, ?_⟩
  · rw [fifoNotices_append]
    exact Nat.add_le_add_right (Nat.add_le_add_right room 1) 1
  · rintro h ⟨⟩
    exact Nat.zero_lt_succ _
  · show s.lnb.lineCounter + 1 ≤ _
    omega

theorem KeepsLine.placePoint (s : State) (x : FormedPoint) : KeepsLine s (s.placePoint x) := by
  unfold State.placePoint
  split
  · rename_i h line
    exact .acceptPoint line x
  · split
    · exact .refl s
    · rename_i numbered
      split
      · exact .refl s
      · rename_i room
        exact (KeepsLine.openLine numbered (Nat.le_of_not_lt room) x.revolution).trans (.acceptPoint rfl x)

theorem KeepsLine.takePoint (s : State) (x : FormedPoint) : KeepsLine s (s.takePoint x) := by
  have checked : KeepsLine s (s.checkRevolution x.revolution) := by
    unfold State.checkRevolution
    split
    · exact .refl s
    · split
      · exact .refl s
      · exact .closeLine s _
  unfold State.takePoint
  refine checked.trans ?_
  simp only
  split
  · exact .closeLine _ _
  · split
    · exact .refl _
    · split
      · exact .refl _
      · unfold State.maskPoint
        split
        · exact .refl _
        · exact .placePoint _ _

end Sys2Proof.Machine

namespace Sys2Proof.Machine

/-! ### Time, pulses and the scan's changes of state -/

theorem KeepsLine.clearSpent_closeLine (s : State) (c : CloseCause) : KeepsLine s (s.closeLine c).clearSpent := by
  refine (KeepsLine.closeLine s c).trans (LineKept.keeps ?_)
  exact .of_fields rfl rfl rfl

theorem KeepsLine.closePulse (s : State) (r : PulseRec) : KeepsLine s (s.closePulse r) := by
  unfold State.closePulse
  simp only
  split
  · exact .refl s
  · refine .trans ?_ (.takePoint _ _)
    exact .refl s

theorem KeepsLine.closePulses (s : State) (sel : PulseRec → Bool) : KeepsLine s (s.closePulses sel) :=
  .foldl .closePulse _ s

theorem KeepsLine.wrapActions (s : State) : KeepsLine s s.wrapActions := by
  apply KeepsLine.settle
  exact .closePulses s _

theorem KeepsLine.elapse (s : State) (dt : Nat) : KeepsLine s (s.elapse dt) := by
  unfold State.elapse
  split
  · exact .refl s
  · refine .trans ?_ (.wrapActions _)
    exact .refl s

/-- What a command does once its time has passed decides. -/
theorem KeepsLine.timed {f : State → State} (hf : ∀ e, KeepsLine e (f e)) (s : State) (dt : Nat) :
    KeepsLine s (f (s.elapse dt)) := (KeepsLine.elapse s dt).trans (hf _)

theorem LineKept.timed {f : State → State} (hf : ∀ e, LineKept e (f e)) (s : State) (dt : Nat) :
    KeepsLine s (f (s.elapse dt)) := .timed (fun e => (hf e).keeps) s dt

theorem KeepsLine.enterEmit (s : State) (isBreak : Bool) (id : BitVec 16) (t : Time) :
    KeepsLine s (s.enterEmit isBreak id t) := .closePulses s _

theorem KeepsLine.takeEmit (s : State) (id : BitVec 16) (t : Time) : KeepsLine s (s.takeEmit id t) := by
  unfold State.takeEmit
  split
  · unfold State.testEmit
    split
    · exact .refl s
    · split
      · exact .enterEmit s _ id t
      · refine .trans ?_ (.enterEmit _ _ id t)
        exact .refl s
      · exact .refl s
      · refine .trans ?_ (.enterEmit _ _ id t)
        exact .refl s
  all_goals exact .refl s

theorem LineKept.takeEcho (s : State) (x : EchoRec) : LineKept s (s.takeEcho x) := by
  have processed : LineKept s (s.processEcho x) := .of_lnb (by unfold State.processEcho; simp only; split <;> rfl)
  unfold State.takeEcho
  split
  · exact processed
  · exact processed
  all_goals exact .of_lnb rfl

/-- Entry to FAULT closes the open line ABORTED (R73). -/
theorem KeepsLine.enterFault (s : State) (c : FaultCause) : KeepsLine s (s.enterFault c) := by
  have discarded : KeepsLine s { s with scn := s.scn.toFault c, eca := s.eca.discardPulses } := .of_lnb rfl
  have aborted := discarded.trans (.clearSpent_closeLine _ .aborted)
  have replied (u : State) (o : PortTag) : KeepsLine u (State.failReply c u o) := .of_lnb rfl
  exact (aborted.trans (.foldl replied s.scn.pendingReplies _)).trans (.of_lnb rfl)

theorem LineKept.enterRunning (s : State) (t : Time) : LineKept s (s.enterRunning t) := by
  have started (u : State) (r : Option PortTag) : LineKept u (u.startDone r) :=
    .of_lnb (by unfold State.startDone; split <;> rfl)
  have entered : LineKept s { s with
      scn := s.scn.toRunning (s.ang.azimuthQuery t)
      ang := { s.ang with travel := 0 }
      eca := { s.eca with prevEmit := none } } := .of_lnb rfl
  have cleared (u : State) : LineKept u (u.raiseAll evState).clearSpent := .of_fields rfl rfl rfl
  exact ((entered.trans (started _ s.scn.startReply)).trans (cleared _)).trans (ExsKept.exsEnterRunning _).lineKept

theorem KeepsLine.completeDrain (s : State) : KeepsLine s s.completeDrain := by
  obtain ⟨-, -, lnb⟩ := s.completeDrain_blocks
  have emptied : KeepsLine s (s.closePulses (fun _ => true)).emptyHistory :=
    (KeepsLine.closePulses s _).trans (.of_lnb rfl)
  have drained : KeepsLine s s.drainPulses := emptied.trans (.clearSpent_closeLine _ .drain)
  exact drained.trans (LineKept.of_lnb lnb).keeps

/-! ### Reports of ANG and ECA -/

theorem LineKept.armedReport (s : State) (v : Verdict) (t : Time) : LineKept s (s.armedReport v t) := by
  unfold State.armedReport
  split
  · exact .of_lnb rfl
  · exact .of_lnb rfl
  · split
    · exact .of_lnb rfl
    · split
      · exact .enterRunning s t
      · exact .of_lnb rfl

theorem KeepsLine.revolutionReport (s : State) (v : Verdict) (t : Time) : KeepsLine s (s.revolutionReport v t) := by
  unfold State.revolutionReport
  split
  · exact (LineKept.armedReport s v t).keeps
  · split
    · exact .enterFault s _
    · exact .refl s
    · exact .refl s
  all_goals exact .refl s

theorem KeepsLine.bandLossReport (s : State) (c : BandLossCause) : KeepsLine s (s.bandLossReport c) := by
  unfold State.bandLossReport
  split
  · exact .of_lnb rfl
  · exact .enterFault s _
  all_goals exact .refl s

theorem KeepsLine.bandLoss (s : State) (c : BandLossCause) : KeepsLine s (s.bandLoss c) := by
  have lost : KeepsLine s (s.setAng s.ang.bandLoss) := .of_lnb rfl
  exact lost.trans (.bandLossReport _ c)

theorem KeepsLine.linkReport (s : State) : KeepsLine s s.linkReport := by
  unfold State.linkReport
  split
  · exact .enterFault s _
  · exact .enterFault s _
  all_goals exact .refl s

theorem KeepsLine.recordReport (s : State) (code : Byte) : KeepsLine s (s.recordReport code) := by
  unfold State.recordReport
  split
  · exact .enterFault s _
  all_goals exact .refl s

theorem LineKept.setAng (s : State) (g : Ang) : LineKept s (s.setAng g) := .of_lnb rfl

theorem LineKept.spanTest (s : State) : LineKept s s.spanTest := by
  unfold State.spanTest
  split
  · split <;> exact .of_lnb rfl
  all_goals exact .refl s

theorem LineKept.raiseIndexFault (s : State) (r : IndexResult) : LineKept s (s.raiseIndexFault r) :=
  (s.raiseIndexFault_kept r).1.lineKept

theorem KeepsLine.endRevolution (s : State) : KeepsLine s s.endRevolution := by
  have measured : KeepsLine s (s.setAng (s.ang.endRevolution s.scn.params s.tb).1) := .of_lnb rfl
  exact measured.trans (.revolutionReport _ _ _)

theorem KeepsLine.mirrorEdge (s : State) (dir : Dir) (active : Bool) : KeepsLine s (s.mirrorEdge dir active) := by
  have edge : KeepsLine s (s.setAng ((s.ang.mirrorEdge s.tb dir active).1.restartStall s.scn.params s.tb)) := .of_lnb rfl
  have counted : KeepsLine s (s.countMirror dir active) := edge.trans (LineKept.raiseIndexFault _ _).keeps
  cases dir with
  | backward => exact counted.trans (.bandLoss _ .reverse)
  | forward =>
    rw [State.mirrorEdge_forward]
    split
    · exact counted.trans (.endRevolution _)
    · exact counted

theorem LineKept.azimuthEdge (s : State) (dir : Dir) (active : Bool) : LineKept s (s.azimuthEdge dir active) := by
  have edge : LineKept s (s.setAng (s.ang.azimuthEdge s.tb dir active).1) := .of_lnb rfl
  exact ((edge.trans (.raiseIndexFault _ _)).trans (.spanTest _)).trans (ExsKept.exsTravel _ dir).lineKept

theorem KeepsLine.takeEdge (s : State) (axis : Axis) (kind : EdgeKind) (active : Bool) :
    KeepsLine s (s.takeEdge axis kind active) := by
  unfold State.takeEdge
  split
  · exact .mirrorEdge s _ active
  · exact .mirrorEdge s _ active
  · exact (LineKept.azimuthEdge s _ active).keeps
  · exact (LineKept.azimuthEdge s _ active).keeps
  · refine LineKept.keeps (.of_lnb ?_)
    unfold State.seeIndex
    split <;> rfl

theorem KeepsLine.stallExpiry (s : State) : KeepsLine s s.stallExpiry := by
  unfold State.stallExpiry
  split
  · refine .settle (.trans ?_ (.bandLoss _ _))
    exact .refl s
  · exact .refl s

theorem LineKept.rangingUp (s : State) : LineKept s s.rangingUp := .of_lnb (by unfold State.rangingUp; split <;> rfl)

theorem KeepsLine.rangingLoss (s : State) : KeepsLine s s.rangingLoss := by
  unfold State.rangingLoss
  split
  · exact .refl s
  · refine .settle (.trans ?_ (.linkReport _))
    exact .refl s

theorem KeepsLine.onRecord {k : State → State} (hk : ∀ s, KeepsLine s (k s)) (s : State) : KeepsLine s (s.onRecord k) := by
  unfold State.onRecord
  split
  · exact .refl s
  · exact hk s

theorem KeepsLine.takeFaultRecord (s : State) (code : Byte) : KeepsLine s (s.takeFaultRecord code) := by
  refine .trans ?_ (.recordReport _ code)
  exact .refl s

/-- An abandonment report ends the open line at most (R74). -/
theorem KeepsLine.takeAbandonment (s : State) : KeepsLine s s.takeAbandonment := by
  unfold State.takeAbandonment
  split
  · exact .refl s
  · unfold Lnb.takeReport
    split
    · exact .refl s
    · split
      · rintro ⟨points, notices, -, counter⟩
        exact ⟨points, Nat.le_trans (Nat.le_add_right _ _) notices, nofun, counter⟩
      · exact .refl s

theorem KeepsLine.armedTimer (s : State) : KeepsLine s
    (if decide (s.scn.state = .armed) && timerDue s.scn.armed s.tb then (s.enterFault .mirrorBand).settle else s) := by
  split
  · exact (KeepsLine.enterFault s _).settle
  · exact .refl s

theorem KeepsLine.drainTimer (s : State) : KeepsLine s
    (if decide (s.scn.state = .draining) && timerDue s.scn.drain s.tb then s.completeDrain.settle else s) := by
  split
  · exact (KeepsLine.completeDrain s).settle
  · exact .refl s

end Sys2Proof.Machine

namespace Sys2Proof.Machine

/-! ### Command frames and their data leave the open line and the Point FIFO alone -/

theorem LineKept.answer (s : State) (p : PortId) (tag : Tag) (st : Status) : LineKept s (s.answer p tag st) := .of_lnb rfl

theorem LineKept.refuse (s : State) (p : PortId) (tag : Tag) (c : SenseClass) (code : Nat) (info : Option Nat) :
    LineKept s (s.refuse p tag c code info) := .of_lnb rfl

/-- A command frame changes its port alone, but for the command's own rule. -/
theorem client_cases (p : PortId) (tag : Tag) (allowed : Role → Bool) (body : State → State) (s : State) :
    (client p tag allowed body s).lnb = s.lnb ∨ client p tag allowed body s = body (s.clearSense p) := by
  unfold client tagAndRole
  split
  · exact .inl rfl
  · split
    · exact .inl rfl
    · split
      · exact .inr rfl
      · exact .inl rfl

theorem KeepsLine.client {body : State → State} (hb : ∀ s, KeepsLine s (body s)) (p : PortId) (tag : Tag)
    (allowed : Role → Bool) (s : State) : KeepsLine s (client p tag allowed body s) := by
  rcases client_cases p tag allowed body s with own | own
  · exact .of_lnb own
  · rw [own]
    exact (KeepsLine.of_lnb (s.clearSense_lnb p)).trans (hb _)

theorem LineKept.client {body : State → State} (hb : ∀ s, LineKept s (body s)) (p : PortId) (tag : Tag)
    (allowed : Role → Bool) (s : State) : LineKept s (client p tag allowed body s) := by
  rcases client_cases p tag allowed body s with own | own
  · exact .of_lnb own
  · rw [own]
    exact (LineKept.of_lnb (s.clearSense_lnb p)).trans (hb _)

theorem LineKept.clientKeepSense {body : State → State} (hb : ∀ s, LineKept s (body s)) (p : PortId) (tag : Tag)
    (s : State) : LineKept s (clientKeepSense p tag body s) := by
  unfold Machine.clientKeepSense tagAndRole
  split
  · exact .refl s
  · split
    · exact .of_lnb rfl
    · split
      · exact hb s
      · exact .of_lnb rfl

theorem LineKept.clientSkipTag {body : State → State} (hb : ∀ s, LineKept s (body s)) (p : PortId) (s : State) :
    LineKept s (clientSkipTag p body s) := by
  unfold Machine.clientSkipTag
  split
  · exact .refl s
  · exact (LineKept.of_lnb (s.clearSense_lnb p)).trans (hb _)

theorem LineKept.inIdle {k : State → State} (hk : ∀ s, LineKept s (k s)) (s : State) (p : PortId) (tag : Tag) :
    LineKept s (s.inIdle p tag k) := by
  by_cases idle : s.scn.state = .idle
  · rw [State.inIdle_idle idle]
    exact hk s
  · rw [State.inIdle_other idle]
    exact .of_lnb rfl

theorem LineKept.idleAtLastByte {k : State → State} (hk : ∀ s, LineKept s (k s)) (s : State) (p : PortId) (tag : Tag) :
    LineKept s (s.idleAtLastByte p tag k) := by
  by_cases idle : s.scn.state = .idle
  · rw [State.idleAtLastByte_idle idle]
    exact hk s
  · rw [State.idleAtLastByte_other idle]
    exact .of_lnb rfl

theorem LineKept.countTest {k : State → State} (hk : ∀ s, LineKept s (k s)) (s : State) (p : PortId) (tag : Tag)
    (count : Byte) (largest operand : Nat) : LineKept s (s.countTest p tag count largest operand k) := by
  unfold State.countTest
  split
  · exact .of_lnb rfl
  · exact hk s

theorem LineKept.gatherInIdle (s : State) (p : PortId) (tag : Tag) (like : Job → Bool) (j : Job) :
    LineKept s (s.inIdle p tag (fun s => s.gatherAlone p tag like j)) :=
  .inIdle (fun s => .of_lnb (by unfold State.gatherAlone; split <;> rfl)) s p tag

theorem State.deliver_lnb (s : State) (p : PortId) (tag : Tag) (code : Byte) (ps : List (List Byte)) :
    (s.deliver p tag code ps).lnb = s.lnb := by
  unfold State.deliver
  split <;> rfl

theorem LineKept.deliver (s : State) (p : PortId) (tag : Tag) (code : Byte) (ps : List (List Byte)) :
    LineKept s (s.deliver p tag code ps) := .of_lnb (s.deliver_lnb p tag code ps)

theorem LineKept.pump (s : State) (p : PortId) (tag : Tag) : LineKept s (s.pump p tag) := by
  unfold State.pump
  split
  · split
    · exact .deliver s p tag _ _
    · exact .refl s
  · exact .refl s

/-! ### Scan commands -/

theorem LineKept.takeScanStart (s : State) (p : PortId) (tag : Tag) : LineKept s (s.takeScanStart p tag) := by
  refine .inIdle (fun s => ?_) s p tag
  exact .of_lnb rfl

theorem LineKept.takeScanStop (s : State) (p : PortId) (tag : Tag) : LineKept s (s.takeScanStop p tag) := by
  refine .of_lnb ?_
  unfold State.takeScanStop State.abortStartReply
  split
  case h_2 =>
    simp only
    split <;> rfl
  all_goals rfl

theorem LineKept.takeFaultClear (s : State) (p : PortId) (tag : Tag) : LineKept s (s.takeFaultClear p tag) :=
  .of_lnb (by unfold State.takeFaultClear; split <;> rfl)

/-- RESTART ends the open line and empties the FIFO (R61). -/
theorem KeepsLine.takeRestart (s : State) (p : PortId) (tag : Tag) : KeepsLine s (s.takeRestart p tag) := by
  have ended (u : State) (q : PortId) (t : Tag) : LineKept u (State.restartTag q u t) :=
    .of_lnb (by unfold State.restartTag; split <;> rfl)
  have restarted (u : State) : KeepsLine u u.restartBlocks := by
    rintro ⟨-, -, -, counter⟩
    exact ⟨Nat.zero_le _, Nat.zero_le _, nofun, counter⟩
  have ports : LineKept s (allPorts.foldl State.restartPort s) :=
    .foldl (fun u q => .foldl (fun u t => ended u q t) allTags u) allPorts s
  exact (ports.keeps.trans (restarted _)).trans (.of_lnb rfl)

/-! ### Data blocks -/

theorem LineKept.completeMirrorCalibrate (s : State) (p : PortId) (tag : Tag) (data : List Byte) :
    LineKept s (s.completeMirrorCalibrate p tag data) := by
  refine .idleAtLastByte (fun s => ?_) s p tag
  exact .of_lnb rfl

theorem LineKept.completeScanSetup (s : State) (p : PortId) (tag : Tag) (block : List Byte) :
    LineKept s (s.completeScanSetup p tag block) := by
  refine .idleAtLastByte (fun s => ?_) s p tag
  split
  · exact .of_lnb rfl
  · unfold State.installScanParams
    simp only
    split
    · exact .of_lnb rfl
    · refine .trans ?_ (Kept.resizeRing _).lineKept
      exact .of_lnb rfl

/-- MASK LOAD replaces the mask list, which the invariant does not speak of. -/
theorem LineKept.completeMaskLoad (s : State) (p : PortId) (tag : Tag) (n : Nat) (data : List Byte) :
    LineKept s (s.completeMaskLoad p tag n data) := by
  refine .idleAtLastByte (fun s => ?_) s p tag
  simp only
  split
  · exact .of_lnb rfl
  · exact .of_fields rfl rfl rfl

theorem LineKept.completeCameraSetup (s : State) (p : PortId) (tag : Tag) (block : List Byte) :
    LineKept s (s.completeCameraSetup p tag block) :=
  .idleAtLastByte (fun s => .of_lnb (by split <;> rfl)) s p tag

theorem LineKept.completeStationLoad (s : State) (p : PortId) (tag : Tag) (n : Nat) (data : List Byte) :
    LineKept s (s.completeStationLoad p tag n data) :=
  .idleAtLastByte (fun s => .of_lnb (by simp only; split <;> rfl)) s p tag

theorem LineKept.takeCells (s : State) (k : Nat) (bytes : List Byte) : LineKept s (s.takeCells k bytes) :=
  .of_lnb (by unfold State.takeCells; split <;> rfl)

theorem LineKept.placeTile (s : State) (p : PortId) (tag : Tag) (ops : TileOperands) (w : AngularWindow) :
    LineKept s (s.placeTile p tag ops w).1 := by
  unfold State.placeTile
  split
  · exact .of_lnb rfl
  · split
    · split <;> exact .of_lnb rfl
    · exact .of_lnb rfl

theorem LineKept.completeDescriptor (s : State) (p : PortId) (tag : Tag) (ops : TileOperands) (bytes : List Byte) :
    LineKept s (s.completeDescriptor p tag ops bytes) := by
  have placed := LineKept.placeTile s p tag ops (descriptorOf bytes)
  unfold State.completeDescriptor
  simp only
  split
  · exact .of_lnb rfl
  · split
    · rename_i s1 k h
      rw [h] at placed
      exact placed.trans (.takeCells s1 k _)
    · rename_i s1 h
      rw [h] at placed
      exact placed

theorem LineKept.gather {complete : State → List Byte → State} (hc : ∀ s x, LineKept s (complete s x)) (s : State)
    (p : PortId) (tag : Tag) (need : Nat) (bytes : List Byte) (mk : List Byte → Job) :
    LineKept s (s.gather p tag need bytes mk complete) := by
  unfold State.gather
  split
  · exact .of_lnb rfl
  · exact hc s _

theorem LineKept.takeData (s : State) (p : PortId) (tag : Tag) (payload : List Byte) :
    LineKept s (s.takeData p tag payload) := by
  have stray : LineKept s (s.stray p) := .of_lnb rfl
  unfold State.takeData
  split
  · exact stray
  · split
    · exact .gather (fun s x => .completeMirrorCalibrate s p tag x) s p tag _ _ _
    · exact .gather (fun s x => .completeScanSetup s p tag x) s p tag _ _ _
    · exact .gather (fun s x => .completeMaskLoad s p tag _ x) s p tag _ _ _
    · exact .gather (fun s x => .completeCameraSetup s p tag x) s p tag _ _ _
    · exact .gather (fun s x => .completeStationLoad s p tag _ x) s p tag _ _ _
    · unfold State.gatherDescriptor
      split
      · exact .of_lnb rfl
      · exact .completeDescriptor s p tag _ _
    · unfold State.cellFrame
      split
      · exact stray
      · split
        · exact .takeCells s _ payload
        · exact stray
    all_goals exact stray

theorem LineKept.dataFrame (s : State) (p : PortId) (tag : Tag) (payload : List Byte) :
    LineKept s (s.dataFrame p tag payload) := by
  unfold State.dataFrame
  split
  · exact .refl s
  · split
    · exact .of_lnb rfl
    · exact (LineKept.takeData s p tag payload).settle

/-! ### Commands that end early, client links, the transmitter -/

theorem State.undo_lnb (s : State) (p : PortId) (tag : Tag) (j : Job) : (s.undo p tag j).lnb = s.lnb := by
  cases j
  case tileCells k =>
    show (s.abortLoad k).lnb = s.lnb
    unfold State.abortLoad
    split <;> rfl
  all_goals rfl

theorem State.abortTag_lnb (s : State) (p : PortId) (tag : Tag) : (s.abortTag p tag).lnb = s.lnb := by
  unfold State.abortTag
  split
  · rfl
  · exact s.undo_lnb p tag _

theorem LineKept.takeTagAbort (s : State) (p : PortId) (tag : Tag) (target : Byte) :
    LineKept s (s.takeTagAbort p tag target) := by
  unfold State.takeTagAbort
  split
  · exact .of_lnb rfl
  · rename_i t _
    exact ((LineKept.of_lnb (s.abortTag_lnb p t)).trans (.answer _ p tag .done)).settle

theorem LineKept.dropTag (p : PortId) (s : State) (tag : Tag) : LineKept s (State.dropTag p s tag) := by
  refine .of_lnb ?_
  unfold State.dropTag
  split
  · rfl
  · exact s.undo_lnb p tag _

theorem LineKept.portReset (s : State) (p : PortId) : LineKept s (s.portReset p) := by
  have dropped : LineKept s ((allTags.foldl (State.dropTag p) s).modPort p Port.cleared) :=
    (LineKept.foldl (LineKept.dropTag p) allTags s).trans (.of_lnb rfl)
  exact (dropped.trans (Kept.closeStream _ p false).lineKept).trans (.of_lnb rfl)

theorem LineKept.clientUp (s : State) (p : PortId) : LineKept s (s.clientUp p) :=
  .of_lnb (by unfold State.clientUp; split <;> rfl)

theorem LineKept.clientLoss (s : State) (p : PortId) : LineKept s (s.clientLoss p) := by
  unfold State.clientLoss
  split
  · exact .refl s
  · refine .settle (.trans ?_ (.portReset _ p))
    exact .of_lnb rfl

theorem LineKept.badFrame (s : State) (p : PortId) : LineKept s (s.badFrame p) :=
  .of_lnb (by unfold State.badFrame; split <;> rfl)

theorem LineKept.frameSent (s : State) (p : PortId) : LineKept s (s.frameSent p) := by
  unfold State.frameSent
  split
  · exact .refl s
  · refine .settle (.trans ?_ (.foldl (fun s t => .pump s p t) allTags _))
    exact .of_lnb rfl

/-! ### Commands of the other blocks -/

theorem LineKept.takeMaskLoad (s : State) (p : PortId) (tag : Tag) (empty : Bool) (count : Byte) :
    LineKept s (s.takeMaskLoad p tag empty count) := by
  unfold State.takeMaskLoad
  split
  · refine .inIdle (fun s => ?_) s p tag
    split
    · exact .of_lnb rfl
    · exact .of_fields rfl rfl rfl
  · exact .countTest (fun s => .gatherInIdle s p tag _ _) s p tag _ _ _

theorem LineKept.takeStationLoad (s : State) (p : PortId) (tag : Tag) (empty : Bool) (count : Byte) :
    LineKept s (s.takeStationLoad p tag empty count) := by
  unfold State.takeStationLoad
  split
  · exact .inIdle (fun s => .of_lnb (by split <;> rfl)) s p tag
  · exact .countTest (fun s => .gatherInIdle s p tag _ _) s p tag _ _ _

theorem LineKept.takeExposureDrop (s : State) (p : PortId) (tag : Tag) (exposure : BitVec 32) :
    LineKept s (s.takeExposureDrop p tag exposure) := by
  unfold State.takeExposureDrop
  split
  · exact .of_lnb rfl
  · split
    case h_3 =>
      refine .settle ?_
      exact .of_lnb rfl
    all_goals exact .of_lnb rfl

theorem LineKept.takeTileLoad (s : State) (p : PortId) (tag : Tag) (exposure : BitVec 32) (priority w h : Byte) :
    LineKept s (s.takeTileLoad p tag exposure priority w h) :=
  .of_lnb (by unfold State.takeTileLoad; split <;> rfl)

theorem LineKept.takeTileRetire (s : State) (p : PortId) (tag : Tag) (slot : Byte) (exposure : BitVec 32) :
    LineKept s (s.takeTileRetire p tag slot exposure) := by
  refine .of_lnb ?_
  unfold State.takeTileRetire
  split
  · rfl
  · split
    · rfl
    · split
      · rfl
      · split <;> rfl
      · split
        · unfold State.retireTile
          split <;> rfl
        · rfl

theorem LineKept.takeStreamOpen (s : State) (p : PortId) (tag : Tag) (mode start : Byte) (line : BitVec 32) :
    LineKept s (s.takeStreamOpen p tag mode start line) := by
  refine .of_lnb ?_
  unfold State.takeStreamOpen
  split
  · rfl
  · split
    · rfl
    · split
      · rfl
      · unfold State.openStream
        simp only
        split <;> rfl

theorem LineKept.takeStreamClose (s : State) (p : PortId) (tag : Tag) : LineKept s (s.takeStreamClose p tag) :=
  ((Kept.closeStream s p true).trans (Kept.answer _ p tag .done)).lineKept.settle

theorem LineKept.startRead (s : State) (p : PortId) (tag : Tag) (count : Nat) :
    LineKept s (s.startRead p tag count) := by
  have outstanding : LineKept s ((s.setRead p (some ⟨tag, count, .waiting⟩)).hold p tag .linesRead) := .of_lnb rfl
  unfold State.startRead
  simp only
  split
  · exact outstanding.trans (Kept.beginLine _ p _ _).lineKept
  · exact outstanding.trans (.of_lnb rfl)

theorem LineKept.takeLinesRead (s : State) (p : PortId) (tag : Tag) (count : Byte) :
    LineKept s (s.takeLinesRead p tag count) := by
  refine .countTest (fun s => ?_) s p tag _ _ _
  split
  · split
    · exact .of_lnb rfl
    · exact (LineKept.startRead s p tag _).settle
  · exact .of_lnb rfl

theorem LineKept.takeLinesRelease (s : State) (p : PortId) (tag : Tag) (n : BitVec 32) :
    LineKept s (s.takeLinesRelease p tag n) := .of_lnb (by unfold State.takeLinesRelease; split <;> rfl)

theorem LineKept.takeLinesCheck (s : State) (p : PortId) (tag : Tag) : LineKept s (s.takeLinesCheck p tag) :=
  .of_lnb (State.deliver_lnb _ p tag _ _)

theorem LineKept.takeLineFind (s : State) (p : PortId) (tag : Tag) (start : BitVec 32) (criterion : Byte)
    (azimuth : Angle) (mask value : Byte) (invert : Bool) :
    LineKept s (s.takeLineFind p tag start criterion azimuth mask value invert) :=
  .of_lnb (by unfold State.takeLineFind; split <;> rfl)

theorem LineKept.takeEventSetup (s : State) (p : PortId) (tag : Tag) (enable : BitVec 16) (mode first : Byte) :
    LineKept s (s.takeEventSetup p tag enable mode first) := by
  unfold State.takeEventSetup
  repeat' split
  all_goals exact .of_lnb rfl

theorem LineKept.takeEventNext (s : State) (p : PortId) (tag : Tag) : LineKept s (s.takeEventNext p tag) :=
  .of_lnb (State.deliver_lnb _ p tag _ _)

theorem LineKept.takeEventFreeze (s : State) (p : PortId) (tag : Tag) (onOff : Byte) :
    LineKept s (s.takeEventFreeze p tag onOff) := .of_lnb (by unfold State.takeEventFreeze; split <;> rfl)

/-- COUNTERS READ clears LNB's counters at most. -/
theorem LineKept.takeCountersRead (s : State) (p : PortId) (tag : Tag) (clear : Bool) :
    LineKept s (s.takeCountersRead p tag clear) := by
  refine .trans ?_ (.deliver _ p tag _ _)
  split
  · exact .of_fields rfl rfl rfl
  · exact .refl s

/-! ### The camera, transfers and engines -/

theorem LineKept.strobeRise (s : State) : LineKept s s.strobeRise := .of_lnb (by unfold State.strobeRise; split <;> rfl)

theorem LineKept.strobeFall (s : State) : LineKept s s.strobeFall := by
  refine .of_lnb ?_
  unfold State.strobeFall
  split
  · rfl
  · split <;> rfl

theorem LineKept.strobeTimeout (s : State) : LineKept s s.strobeTimeout := by
  refine .of_lnb ?_
  unfold State.strobeTimeout
  split
  · rfl
  · split <;> rfl

theorem LineKept.tileDeadline (s : State) (id : Nat) : LineKept s (s.tileDeadline id) := by
  refine .of_lnb ?_
  unfold State.tileDeadline
  split
  · rfl
  · split <;> rfl

theorem LineKept.colourPoints (n : Nat) (s : State) : LineKept s (State.colourPoints n s) := by
  induction n generalizing s with
  | zero => exact .refl s
  | succ n ih =>
    refine .trans (.of_lnb ?_) (ih _)
    unfold State.colourNext
    split
    · rfl
    · split
      · rfl
      · split <;> rfl

theorem LineKept.endFirstPass (s : State) (x : Pass) : LineKept s (s.endFirstPass x) := by
  refine .trans ?_ ((Kept.releasePins _).trans (Kept.commitReady _)).lineKept
  exact .of_lnb rfl

theorem LineKept.endStep (s : State) (x : Pass) : LineKept s (s.endStep x) := by
  unfold State.endStep
  simp only
  split
  · refine .trans ?_ (Kept.releasePins _).lineKept
    exact .of_lnb rfl
  · refine .trans ?_ ((Kept.releasePins _).trans ((Kept.changeNotice _ x.line).trans (Kept.raiseReady s _))).lineKept
    exact .of_lnb rfl

theorem LineKept.endClrTransfer (s : State) (work : Nat) : LineKept s (s.endClrTransfer work) := by
  unfold State.endClrTransfer
  split
  · exact .refl s
  · split
    · unfold State.endPass
      split
      · exact .endFirstPass s _
      · exact .endStep s _
      · exact .endStep s _
    · exact .colourPoints _ s

theorem State.completeLoad_lnb (s : State) (k : Nat) : (s.completeLoad k).lnb = s.lnb := by
  unfold State.completeLoad
  split
  · rfl
  · simp only
    split <;> rfl

theorem LineKept.endLoaderTransfer (s : State) (k work : Nat) : LineKept s (s.endLoaderTransfer k work) := by
  refine .of_lnb ?_
  unfold State.endLoaderTransfer
  split
  · rfl
  · split
    · rfl
    · simp only
      split
      · exact State.completeLoad_lnb _ k
      · rfl

theorem LineKept.endReaderTransfer (s : State) (p : PortId) (work : Nat) :
    LineKept s (s.endReaderTransfer p work) := by
  refine .of_lnb ?_
  unfold State.endReaderTransfer
  split
  · split <;> rfl
  · rfl

theorem LineKept.endTransfer (s : State) (work : Nat) : LineKept s (s.endTransfer work) := by
  have idle : LineKept s { s with rng := { s.rng with inProgress := none } } := .of_lnb rfl
  have ended (u : State) (o : TransferOwner) : LineKept u (u.endTransferOf o work) := by
    cases o with
    | ringWriter => exact .refl u
    | clr => exact .endClrTransfer u work
    | tileLoader k => exact .endLoaderTransfer u k work
    | reader p => exact .endReaderTransfer u p work
  unfold State.endTransfer
  split
  · exact .refl s
  · refine .settle ?_
    split
    · exact idle.trans (ended _ _)
    · exact idle

theorem LineKept.firstPassEnd (s : State) : LineKept s s.firstPassEnd := by
  unfold State.firstPassEnd
  split
  · exact .endTransfer s 0
  · exact .refl s

theorem LineKept.backfillStepEnd (s : State) : LineKept s s.backfillStepEnd := by
  unfold State.backfillStepEnd
  split
  · exact .endTransfer s 0
  · exact .refl s

theorem LineKept.tileLoadComplete (s : State) : LineKept s s.tileLoadComplete := by
  unfold State.tileLoadComplete
  split
  · exact .refl s
  · exact .endTransfer s _

theorem LineKept.lineDeliveryComplete (s : State) (p : PortId) : LineKept s (s.lineDeliveryComplete p) := by
  unfold State.lineDeliveryComplete
  split
  · exact .refl s
  · exact (Kept.completeDelivery s p _ _).lineKept.settle

/-! ### Every command, every step -/

theorem KeepsLine.powerOn (roles : Quad Role) (s : State) : KeepsLine s (powerOnState roles s.pending) :=
  fun _ => ⟨Nat.zero_le _, Nat.zero_le _, nofun, Nat.zero_le _⟩

theorem KeepsLine.wrap (s : State) : KeepsLine s s.wrap := by
  refine .trans ?_ (.wrapActions _)
  exact .of_lnb rfl

/-- A command answers the state its meaning gives. -/
theorem KeepsLine.of_next {s u t : State} (k : KeepsLine s u)
    (h : (Host.Outcome.next u : Host.Outcome State Fault Refusal) = .next t) : KeepsLine s t := by
  cases h
  exact k

theorem exec_keepsLine (c : Instr) (s t : State) (h : exec c s = .next t) : KeepsLine s t := by
  cases c with
  | powerOn straps => exact (KeepsLine.powerOn (straps.map roleOfStraps) s).of_next h
  | tbWrap => exact (KeepsLine.wrap s).of_next h
  | quadratureEdge dt axis kind active =>
    exact (KeepsLine.timed (fun e => (KeepsLine.takeEdge e axis kind active).settle) s dt).of_next h
  | indexInactive dt axis => exact (LineKept.timed (.setAng · _) s dt).of_next h
  | stallTimerExpiry dt => exact (KeepsLine.timed .stallExpiry s dt).of_next h
  | rangingLinkUp dt => exact (LineKept.timed .rangingUp s dt).of_next h
  | rangingLinkLoss dt => exact (KeepsLine.timed .rangingLoss s dt).of_next h
  | emit dt id time =>
    exact (KeepsLine.timed (.onRecord (fun e => (KeepsLine.takeEmit e id time).settle)) s dt).of_next h
  | echo dt reference delay amplitude width saturated =>
    exact (KeepsLine.timed (.onRecord (fun e => (LineKept.takeEcho e ⟨reference, delay, amplitude, width, saturated⟩).keeps))
      s dt).of_next h
  | faultRecord dt code =>
    exact (KeepsLine.timed (.onRecord (fun e => (KeepsLine.takeFaultRecord e code).settle)) s dt).of_next h
  | armedTimerExpiry dt => exact (KeepsLine.timed .armedTimer s dt).of_next h
  | drainTimerExpiry dt => exact (KeepsLine.timed .drainTimer s dt).of_next h
  | abandonmentReport dt => exact (KeepsLine.timed .takeAbandonment s dt).of_next h
  | dramTransferEnd dt work => exact (LineKept.timed (.endTransfer · work) s dt).of_next h
  | firstPassEnd dt => exact (LineKept.timed .firstPassEnd s dt).of_next h
  | backfillStepEnd dt => exact (LineKept.timed .backfillStepEnd s dt).of_next h
  | strobeRise dt => exact (LineKept.timed .strobeRise s dt).of_next h
  | strobeFall dt => exact (LineKept.timed .strobeFall s dt).of_next h
  | strobeTimeoutExpiry dt => exact (LineKept.timed .strobeTimeout s dt).of_next h
  | tileDeadlineExpiry dt exposure =>
    exact (LineKept.timed (fun e => (LineKept.tileDeadline e exposure.toNat).settle) s dt).of_next h
  | tileLoadComplete dt => exact (LineKept.timed .tileLoadComplete s dt).of_next h
  | lineDeliveryComplete dt p => exact (LineKept.timed (.lineDeliveryComplete · p) s dt).of_next h
  | clientLinkUp dt p => exact (LineKept.timed (.clientUp · p) s dt).of_next h
  | clientLinkLoss dt p => exact (LineKept.timed (.clientLoss · p) s dt).of_next h
  | badFrame dt p => exact (LineKept.timed (.badFrame · p) s dt).of_next h
  | dataOut dt p tag payload => exact (LineKept.timed (.dataFrame · p tag payload) s dt).of_next h
  | frameTransmitted dt p => exact (LineKept.timed (.frameSent · p) s dt).of_next h
  | unknownCommand dt p tag code =>
    exact (LineKept.timed (.client (.refuse · p tag .arg 0 _) p tag everyRole) s dt).of_next h
  | identify dt p tag => exact (LineKept.timed (.client (.deliver · p tag _ _) p tag everyRole) s dt).of_next h
  | statusRead dt p tag =>
    exact (LineKept.timed (.client (fun e => .deliver e p tag _ _) p tag everyRole) s dt).of_next h
  | countersRead dt p tag clear =>
    exact (LineKept.timed (.client (.takeCountersRead · p tag clear) p tag everyRole) s dt).of_next h
  | senseRead dt p tag =>
    exact (LineKept.timed (.clientKeepSense (fun e => .deliver e p tag _ _) p tag) s dt).of_next h
  | tagAbort dt p tag target =>
    exact (LineKept.timed (.clientSkipTag (.takeTagAbort · p tag target) p) s dt).of_next h
  | portReset dt p tag =>
    exact (LineKept.timed (.clientSkipTag (fun e => ((LineKept.portReset e p).trans (.answer _ p tag .done)).settle) p)
      s dt).of_next h
  | eventSetup dt p tag enable mode first =>
    exact (LineKept.timed (.client (.takeEventSetup · p tag enable mode first) p tag everyRole) s dt).of_next h
  | eventNext dt p tag => exact (LineKept.timed (.client (.takeEventNext · p tag) p tag everyRole) s dt).of_next h
  | eventFreeze dt p tag onOff =>
    exact (LineKept.timed (.client (.takeEventFreeze · p tag onOff) p tag everyRole) s dt).of_next h
  | scanSetup dt p tag =>
    exact (LineKept.timed (.client (.gatherInIdle · p tag _ _) p tag onlyControl) s dt).of_next h
  | scanStart dt p tag => exact (LineKept.timed (.client (.takeScanStart · p tag) p tag onlyControl) s dt).of_next h
  | scanStop dt p tag => exact (LineKept.timed (.client (.takeScanStop · p tag) p tag onlyControl) s dt).of_next h
  | faultClear dt p tag => exact (LineKept.timed (.client (.takeFaultClear · p tag) p tag onlyControl) s dt).of_next h
  | restart dt p tag => exact (KeepsLine.timed (.client (.takeRestart · p tag) p tag onlyControl) s dt).of_next h
  | mirrorCalibrate dt p tag =>
    exact (LineKept.timed (.client (.gatherInIdle · p tag _ _) p tag onlyControl) s dt).of_next h
  | maskLoad dt p tag empty count =>
    exact (LineKept.timed (.client (.takeMaskLoad · p tag empty count) p tag onlyControl) s dt).of_next h
  | cameraSetup dt p tag =>
    exact (LineKept.timed (.client (.gatherInIdle · p tag _ _) p tag imagingOrControl) s dt).of_next h
  | stationLoad dt p tag empty count =>
    exact (LineKept.timed (.client (.takeStationLoad · p tag empty count) p tag onlyImaging) s dt).of_next h
  | exposuresRead dt p tag after count =>
    exact (LineKept.timed (.client (fun e => .countTest (fun e => .deliver e p tag _ _) e p tag _ _ _) p tag everyRole)
      s dt).of_next h
  | exposureDrop dt p tag exposure =>
    exact (LineKept.timed (.client (.takeExposureDrop · p tag exposure) p tag onlyImaging) s dt).of_next h
  | tileLoad dt p tag exposure priority w hh =>
    exact (LineKept.timed (.client (.takeTileLoad · p tag exposure priority w hh) p tag onlyImaging) s dt).of_next h
  | tileRetire dt p tag slot exposure =>
    exact (LineKept.timed (.client (.takeTileRetire · p tag slot exposure) p tag onlyImaging) s dt).of_next h
  | tilesList dt p tag =>
    exact (LineKept.timed (.client (fun e => .deliver e p tag _ _) p tag everyRole) s dt).of_next h
  | streamOpen dt p tag mode start startLine =>
    exact (LineKept.timed (.client (.takeStreamOpen · p tag mode start startLine) p tag everyRole) s dt).of_next h
  | streamClose dt p tag => exact (LineKept.timed (.client (.takeStreamClose · p tag) p tag everyRole) s dt).of_next h
  | linesRead dt p tag count =>
    exact (LineKept.timed (.client (.takeLinesRead · p tag count) p tag everyRole) s dt).of_next h
  | linesRelease dt p tag n =>
    exact (LineKept.timed (.client (.takeLinesRelease · p tag n) p tag everyRole) s dt).of_next h
  | linesCheck dt p tag => exact (LineKept.timed (.client (.takeLinesCheck · p tag) p tag everyRole) s dt).of_next h
  | lineFind dt p tag startLine criterion azimuth mask value invert =>
    exact (LineKept.timed (.client (.takeLineFind · p tag startLine criterion azimuth mask value invert) p tag everyRole)
      s dt).of_next h

theorem step_keepsLine (s t : State) (h : step s = .next t) : KeepsLine s t := by
  unfold step at h
  split at h
  · exact (KeepsLine.elapse s 1).of_next h
  · rename_i c rest _
    have taken : KeepsLine s { s with pending := rest } := .of_lnb rfl
    exact taken.trans (exec_keepsLine c _ t h)

/-- Settles O53: LNB's own work keeps the bounds (`KeepsLine`), all other work lets nothing they speak of grow (`LineKept`). -/
theorem lineInvariantKept : Obligations.LineInvariantKept := fun s t inv h => step_keepsLine s t h inv

end Sys2Proof.Machine

namespace Sys2Proof.Machine

/-! ### Taking a point, case by case (R63 to R67) -/

/-- The point is of the open line's revolution, or no line is open. -/
def Lnb.joins (l : Lnb) (rev : BitVec 32) : Prop := ∀ h, l.openLine = some h → h.revolution = rev

theorem State.checkRevolution_joins {s : State} {rev : BitVec 32} (joins : s.lnb.joins rev) :
    s.checkRevolution rev = s := by
  unfold State.checkRevolution
  split
  · rfl
  · rename_i h line
    exact if_pos (joins h line)

theorem State.checkRevolution_other {s : State} {h : LineHeader} (line : s.lnb.openLine = some h) {rev : BitVec 32}
    (other : h.revolution ≠ rev) : s.checkRevolution rev = s.closeLine .newRevolution := by
  unfold State.checkRevolution
  rw [line]
  exact if_neg other

theorem Lnb.joins_none {l : Lnb} (line : l.openLine = none) (rev : BitVec 32) : l.joins rev := fun h isOpen => by
  rw [line] at isOpen
  cases isOpen

theorem Lnb.joins_some {l : Lnb} {h : LineHeader} (line : l.openLine = some h) {rev : BitVec 32}
    (same : h.revolution = rev) : l.joins rev := fun k isOpen => by
  rw [line] at isOpen
  cases isOpen
  exact same

section TakePoint

variable {s : State} {x : FormedPoint} (joins : s.lnb.joins x.revolution)

include joins

theorem State.takePoint_above (above : s.scn.params.we ≤ x.point.m.toNat) : s.takePoint x = s.closeLine .windowEnd := by
  unfold State.takePoint
  rw [State.checkRevolution_joins joins]
  exact if_pos above

theorem State.takePoint_below (below : x.point.m.toNat < s.scn.params.ws) (inEnd : x.point.m.toNat < s.scn.params.we) :
    s.takePoint x = s := by
  unfold State.takePoint
  rw [State.checkRevolution_joins joins]
  exact (if_neg (Nat.not_le.2 inEnd)).trans (if_pos below)

theorem State.takePoint_spent (inStart : s.scn.params.ws ≤ x.point.m.toNat) (inEnd : x.point.m.toNat < s.scn.params.we)
    (spent : s.lnb.spent = some x.revolution) : s.takePoint x = { s with lnb := s.lnb.countClosedRevolution } := by
  unfold State.takePoint
  rw [State.checkRevolution_joins joins]
  exact (if_neg (Nat.not_le.2 inEnd)).trans ((if_neg (Nat.not_lt.2 inStart)).trans (if_pos spent))

theorem State.takePoint_inside (inStart : s.scn.params.ws ≤ x.point.m.toNat) (inEnd : x.point.m.toNat < s.scn.params.we)
    (unspent : s.lnb.spent ≠ some x.revolution) : s.takePoint x = s.maskPoint x := by
  unfold State.takePoint
  rw [State.checkRevolution_joins joins]
  exact (if_neg (Nat.not_le.2 inEnd)).trans ((if_neg (Nat.not_lt.2 inStart)).trans (if_neg unspent))

end TakePoint

/-! ### The mask list (R66, R75) -/

/-- The point lies in the entry's window. -/
def MaskEntry.covers (m : MaskEntry) (p : Point) : Prop :=
  (p.a - BitVec.ofNat 24 m.azStart).toNat < m.azWidth ∧ m.mLow ≤ p.m.toNat ∧ p.m.toNat < m.mHigh

theorem maskedBy_iff (mask : List MaskEntry) (action : MaskAction) (p : Point) :
    maskedBy mask action p.a p.m = true ↔ ∃ m ∈ mask, m.action = action ∧ m.covers p := by
  simp only [maskedBy, MaskEntry.contains, List.any_eq_true, Bool.and_eq_true, decide_eq_true_eq, MaskEntry.covers,
    and_assoc]

/-- The point with the mask list's MASK TAG. -/
def FormedPoint.tagged (x : FormedPoint) (tag : Bool) : FormedPoint :=
  { x with point := { x.point with flags := { x.point.flags with maskTag := tag } } }

theorem State.maskPoint_drop {s : State} {x : FormedPoint}
    (inside : ∃ m ∈ s.lnb.mask, m.action = .drop ∧ m.covers x.point) :
    s.maskPoint x = { s with lnb := s.lnb.countMaskDrop } := if_pos ((maskedBy_iff _ _ _).2 inside)

theorem State.maskPoint_pass {s : State} {x : FormedPoint} {tag : Bool}
    (outside : ∀ m ∈ s.lnb.mask, m.action = .drop → ¬ m.covers x.point)
    (tagged : tag = true ↔ ∃ m ∈ s.lnb.mask, m.action = .tag ∧ m.covers x.point) :
    s.maskPoint x = s.placePoint (x.tagged tag) := by
  have passed : ¬ maskedBy s.lnb.mask .drop x.point.a x.point.m = true := by
    rw [maskedBy_iff]
    rintro ⟨m, mem, drop, covers⟩
    exact outside m mem drop covers
  have tag' : maskedBy s.lnb.mask .tag x.point.a x.point.m = tag := by
    rw [Bool.eq_iff_iff, maskedBy_iff, tagged]
  rw [← tag']
  exact if_neg passed

/-- A point that the window and the mask list let pass is placed, with its tag. -/
theorem State.takePoint_pass {s : State} {x : FormedPoint} {tag : Bool} (joins : s.lnb.joins x.revolution)
    (inStart : s.scn.params.ws ≤ x.point.m.toNat) (inEnd : x.point.m.toNat < s.scn.params.we)
    (unspent : s.lnb.spent ≠ some x.revolution) (outside : ∀ m ∈ s.lnb.mask, m.action = .drop → ¬ m.covers x.point)
    (tagged : tag = true ↔ ∃ m ∈ s.lnb.mask, m.action = .tag ∧ m.covers x.point) :
    s.takePoint x = s.placePoint (x.tagged tag) := by
  rw [State.takePoint_inside joins inStart inEnd unspent, State.maskPoint_pass outside tagged]

/-! ### A point joins the open line or opens one (R67, R68) -/

theorem State.placePoint_some {s : State} {h : LineHeader} (line : s.lnb.openLine = some h) (x : FormedPoint) :
    s.placePoint x = s.acceptPoint h x := by
  rw [State.placePoint, line]

section PlacePoint

variable {s : State} (line : s.lnb.openLine = none) (x : FormedPoint)

include line

theorem State.placePoint_unnumbered (last : s.lnb.lineCounter = 4294967295) :
    s.placePoint x = { s with lnb := s.lnb.countUnnumbered } := by
  rw [State.placePoint, line]
  exact if_pos last

theorem State.placePoint_full (numbered : s.lnb.lineCounter ≠ 4294967295) (full : 62 < fifoNotices s.lnb.fifo) :
    s.placePoint x = { s with lnb := s.lnb.countFifoDrop } := by
  rw [State.placePoint, line]
  exact (if_neg numbered).trans (if_pos full)

/-- The line it opens is open, and empty, when the point joins it. -/
theorem State.placePoint_opens (numbered : s.lnb.lineCounter ≠ 4294967295) (room : fifoNotices s.lnb.fifo ≤ 62) :
    s.placePoint x = (s.openLine x.revolution).placePoint x := by
  rw [State.placePoint_some (s := s.openLine x.revolution) rfl, State.placePoint, line]
  exact (if_neg numbered).trans (if_neg (Nat.not_lt.2 room))

end PlacePoint

/-! ### What LNB does with a point -/

theorem newRevolution : Statement.NewRevolution := by
  intro s x h line other
  refine ⟨(s.closeLine .newRevolution).rng, ?_⟩
  have closed := State.closeLine_some line .newRevolution
  have again : (s.closeLine .newRevolution).takePoint x = s.takePoint x := by
    unfold State.takePoint
    rw [State.checkRevolution_other line other,
      State.checkRevolution_joins (Lnb.joins_none (s.closeLine_openLine _) x.revolution)]
  rw [← again]
  exact congrArg (State.takePoint · x) closed

theorem pointsOutsideTheLine : Statement.PointsOutsideTheLine := by
  intro s x joins hjoins
  refine ⟨fun h line same above => ?_, fun line above => ?_, fun join => State.takePoint_below (hjoins.1 join),
    fun join => State.takePoint_spent (hjoins.1 join), fun join inStart inEnd unspent inside => ?_⟩
  · rw [State.takePoint_above (Lnb.joins_some line same) above, State.closeLine_lnb line]
    exact ⟨rfl, rfl, rfl⟩
  · rw [State.takePoint_above (Lnb.joins_none line _) above, State.closeLine_none line]
  · rw [State.takePoint_inside (hjoins.1 join) inStart inEnd unspent, State.maskPoint_drop inside]
    rfl

theorem lineOpens : Statement.LineOpens := by
  intro s x line inStart inEnd unspent outside
  have placed := State.takePoint_pass (Lnb.joins_none line _) inStart inEnd unspent outside (maskedBy_iff _ _ _)
  refine ⟨fun last => ?_, fun numbered full => ?_, fun numbered room => ⟨(s.openLine x.revolution).rng, ?_⟩⟩
  · rw [placed, State.placePoint_unnumbered line _ last]
    rfl
  · rw [placed, State.placePoint_full line _ numbered full]
    rfl
  · have opened : (s.openLine x.revolution).takePoint x = (s.openLine x.revolution).placePoint (x.tagged _) :=
      State.takePoint_pass (Lnb.joins_some rfl rfl) inStart inEnd unspent outside (maskedBy_iff s.lnb.mask .tag x.point)
    rw [placed, State.placePoint_opens line _ numbered room]
    exact opened.symm

theorem pointOpensLine : Statement.PointOpensLine := by
  intro s x inside tag line inStart inEnd unspent hinside outside tagged numbered notices points
  obtain rfl : inside = fun m => m.covers x.point := funext fun m => propext (hinside m)
  have first : (freshHeader (s.lnb.lineCounter + 1) s.scn.session x.revolution).accepted + 1 ≠ 16384 := nofun
  have room : fifoPoints (s.openLine x.revolution).lnb.fifo < 512 := by
    rw [State.openLine_eq, fifoPoints_append]
    exact points
  have placed : s.takePoint x = (s.openLine x.revolution).acceptPoint
      (freshHeader (s.lnb.lineCounter + 1) s.scn.session x.revolution) (x.tagged tag) := by
    rw [State.takePoint_pass (Lnb.joins_none line _) inStart inEnd unspent outside tagged,
      State.placePoint_opens line _ (Nat.ne_of_lt numbered) notices]
    exact State.placePoint_some rfl _
  rw [placed, State.acceptPoint_next first, State.offerPoint_lnb_room room]
  exact ⟨rfl, List.append_assoc _ _ _, rfl, rfl, rfl⟩

theorem State.acceptPoint_atn (s : State) (h : LineHeader) (x : FormedPoint) :
    (s.acceptPoint h x).atn = (s.offerPoint (h.acceptPoint x) x.point).atn := by
  unfold State.acceptPoint
  simp only
  split
  · exact State.closeLine_atn _ _
  · rfl

theorem State.offerPoint_atn {s : State} {h : LineHeader}
    (quiet : fifoPoints s.lnb.fifo < 512 ∨ h.flags.pointsDropped = true) (p : Point) :
    (s.offerPoint h p).atn = s.atn := by
  by_cases room : fifoPoints s.lnb.fifo < 512
  · rw [State.offerPoint_room room]
    rfl
  · rw [State.offerPoint_full room, if_pos (quiet.resolve_left room)]
    rfl

/-- The line's first drop raises LOST (R70). -/
theorem State.acceptPoint_raises {s : State} {h : LineHeader} (full : ¬ fifoPoints s.lnb.fifo < 512)
    (first : h.flags.pointsDropped = false) (x : FormedPoint) : raisedEverywhere evLost (s.acceptPoint h x) := by
  have raised : raisedEverywhere evLost (s.offerPoint (h.acceptPoint x) x.point) := by
    rw [State.offerPoint_full full, if_neg (by rw [Bool.not_eq_true]; exact first)]
    exact raisedEverywhere_raiseAll _ _
  by_cases last : h.accepted + 1 = 16384
  · have closed := LnbKept.closeLine (s.offerPoint (h.acceptPoint x) x.point) .truncated
    rw [State.acceptPoint_last last]
    exact raisedEverywhere_of_kept raised (.of_prt closed.prt) closed.atn
  · rwa [State.acceptPoint_next last]

/-- The line's last point closes it TRUNCATED and spends its revolution, whatever became of the point. -/
theorem State.acceptPoint_last_lnb {s : State} {h h' : LineHeader} {x : FormedPoint} {l : Lnb}
    (last : h.accepted + 1 = 16384) (offered : (s.offerPoint (h.acceptPoint x) x.point).lnb = l)
    (line : l.openLine = some h') : (s.acceptPoint h x).lnb = { l with
      openLine := none
      spent := some h'.revolution
      fifo := l.fifo ++ [.closeNotice h'.lineNumber { h' with flags := { h'.flags with truncated := true } }] } := by
  subst offered
  rw [State.acceptPoint_last last, State.closeLine_lnb line]
  rfl

theorem pointAccepted : Statement.PointAccepted := by
  intro s t x h h1 h2 inside tag p ht line same inStart inEnd unspent hinside outside tagged hp hh1 hh2
  obtain rfl : inside = fun m => m.covers x.point := funext fun m => propext (hinside m)
  have kept : LnbKept s t := ht ▸ LnbKept.takePoint s x
  have accepted : t = s.acceptPoint h (x.tagged tag) := by
    rw [ht, State.takePoint_pass (Lnb.joins_some line same) inStart inEnd unspent outside tagged,
      State.placePoint_some line]
  have entered : (h.acceptPoint (x.tagged tag)).entered = h1 := by
    simp [hh1, LineHeader.entered, LineHeader.acceptPoint, LineHeader.accepted, FormedPoint.tagged]
  have dropped : (h.acceptPoint (x.tagged tag)).dropped = h2 := by
    rw [hh2, ← entered]
    rfl
  have joined (room : fifoPoints s.lnb.fifo < 512) :
      (s.offerPoint (h.acceptPoint (x.tagged tag)) (x.tagged tag).point).lnb =
        { s.lnb with openLine := some h1, fifo := s.lnb.fifo ++ [.point h.lineNumber p] } := by
    rw [State.offerPoint_lnb_room room, entered, hp]
    rfl
  have lost (full : 512 ≤ fifoPoints s.lnb.fifo) :
      (s.offerPoint (h.acceptPoint (x.tagged tag)) (x.tagged tag).point).lnb = { s.lnb with
        openLine := some h2
        counters := { s.lnb.counters with fifoDrops := bump s.lnb.counters.fifoDrops 1 } } := by
    rw [State.offerPoint_lnb_full (Nat.not_lt.2 full), dropped]
  refine ⟨fun room more => ?_, fun room last => ?_, fun full more => ?_, fun full last => ?_,
    fun full first => ?_, fun quiet => ?_, kept.scn, kept.eca, kept.ang, kept.clr, kept.exs, kept.prt⟩
  · rw [accepted, State.acceptPoint_next (Nat.ne_of_lt more), joined room]
  · rw [accepted, State.acceptPoint_last_lnb last (joined room) rfl, List.append_assoc, hh1]
    rfl
  · rw [accepted, State.acceptPoint_next (Nat.ne_of_lt more), lost full]
  · rw [accepted, State.acceptPoint_last_lnb last (lost full) rfl, hh2, hh1]
  · rw [accepted]
    exact State.acceptPoint_raises (Nat.not_lt.2 full) first _
  · rw [accepted, State.acceptPoint_atn]
    exact State.offerPoint_atn (h := h.acceptPoint (x.tagged tag)) quiet _

theorem abandonmentReportTaken : Statement.AbandonmentReportTaken := by
  intro dt n rest s e he reports
  have taken : exec (.abandonmentReport dt) s = .next { e with lnb := { e.lnb.takeReport n with reports := rest } } := by
    show Host.Outcome.next (s.elapse dt).takeAbandonment = _
    rw [← he, State.takeAbandonment, reports]
  refine ⟨fun h line named => ?_, fun other => ?_⟩
  · rw [taken, Lnb.takeReport, line]
    simp [named]
  · rw [taken]
    cases line : e.lnb.openLine with
    | none => simp [Lnb.takeReport, line]
    | some h => simp [Lnb.takeReport, line, other h line]

/-- Settles O31: the window, the spent revolution, the mask list and the opening of a line are the cases of `takePoint` and
`placePoint`; an accepted point is offered to the FIFO, and the last of a line closes it. -/
theorem pointsAtTheLineBuilder : Obligations.PointsAtTheLineBuilder :=
  ⟨newRevolution, pointsOutsideTheLine, lineOpens, pointOpensLine, pointAccepted, abandonmentReportTaken⟩

end Sys2Proof.Machine

namespace Sys2Proof.Machine

/-! ### The lines of the ring and its size stay (R79, R81) -/

/-- The lines the ring holds and the scan parameters, the ring size among them, are the same. -/
structure SameLines (s t : State) : Prop where
  committed : t.rng.committed = s.rng.committed
  closed : t.rng.closed = s.rng.closed
  openLine : t.rng.openLine = s.rng.openLine
  params : t.scn.params = s.scn.params

theorem SameLines.refl (s : State) : SameLines s s := ⟨rfl, rfl, rfl, rfl⟩

theorem SameLines.trans {s t u : State} (h : SameLines s t) (k : SameLines t u) : SameLines s u :=
  ⟨k.committed.trans h.committed, k.closed.trans h.closed, k.openLine.trans h.openLine, k.params.trans h.params⟩

/-- `SameLines.trans`, the later part given first, which then says what the earlier part leads to. -/
theorem SameLines.after {s t u : State} (k : SameLines t u) (h : SameLines s t) : SameLines s u := h.trans k

theorem SameLines.foldl {α : Type} {f : State → α → State} (hf : ∀ s a, SameLines s (f s a)) (l : List α) (s : State) :
    SameLines s (l.foldl f s) := by
  induction l generalizing s with
  | nil => exact .refl s
  | cons a l ih => exact (hf s a).trans (ih _)

theorem ExsKept.sameLines {s t : State} (h : ExsKept s t) : SameLines s t := by
  constructor <;> rw [h.rest]

/-! ### LNB's work leaves the ring alone -/

theorem SameLines.closeLine (s : State) (c : CloseCause) : SameLines s (s.closeLine c) := by
  unfold State.closeLine
  split
  · exact .refl s
  · exact ⟨rfl, rfl, rfl, rfl⟩

theorem SameLines.offerPoint (s : State) (h : LineHeader) (p : Point) : SameLines s (s.offerPoint h p) := by
  by_cases room : fifoPoints s.lnb.fifo < 512
  · rw [State.offerPoint_room room]
    exact ⟨rfl, rfl, rfl, rfl⟩
  · rw [State.offerPoint_full room]
    split <;> exact ⟨rfl, rfl, rfl, rfl⟩

theorem SameLines.acceptPoint (s : State) (h : LineHeader) (x : FormedPoint) : SameLines s (s.acceptPoint h x) := by
  unfold State.acceptPoint
  simp only
  split
  · exact (SameLines.offerPoint s _ _).trans (.closeLine _ _)
  · exact .offerPoint s _ _

theorem SameLines.placePoint (s : State) (x : FormedPoint) : SameLines s (s.placePoint x) := by
  have opened : SameLines s (s.openLine x.revolution) := ⟨rfl, rfl, rfl, rfl⟩
  unfold State.placePoint
  split
  · exact .acceptPoint s _ x
  · split
    · exact ⟨rfl, rfl, rfl, rfl⟩
    · split
      · exact ⟨rfl, rfl, rfl, rfl⟩
      · exact opened.trans (.acceptPoint _ _ x)

theorem SameLines.takePoint (s : State) (x : FormedPoint) : SameLines s (s.takePoint x) := by
  have checked : SameLines s (s.checkRevolution x.revolution) := by
    unfold State.checkRevolution
    split
    · exact .refl s
    · split
      · exact .refl s
      · exact .closeLine s _
  unfold State.takePoint
  refine checked.trans ?_
  simp only
  split
  · exact .closeLine _ _
  · split
    · exact .refl _
    · split
      · exact ⟨rfl, rfl, rfl, rfl⟩
      · unfold State.maskPoint
        split
        · exact ⟨rfl, rfl, rfl, rfl⟩
        · exact .placePoint _ _

theorem SameLines.closePulses (s : State) (sel : PulseRec → Bool) : SameLines s (s.closePulses sel) := by
  refine .trans (.foldl (fun s r => ?_) _ s) ⟨rfl, rfl, rfl, rfl⟩
  unfold State.closePulse
  simp only
  split
  · exact ⟨rfl, rfl, rfl, rfl⟩
  · exact SameLines.after (.takePoint _ _) ⟨rfl, rfl, rfl, rfl⟩

/-! ### STR and CLR leave the lines where they are -/

theorem SameLines.raiseReady (before s : State) : SameLines s (State.raiseReady before s) := by
  refine .foldl (fun s p => ?_) _ s
  split <;> exact ⟨rfl, rfl, rfl, rfl⟩

theorem SameLines.holdLine (s : State) (p : PortId) (r : LinesRead) (n : Nat) : SameLines s (s.holdLine p r n) := by
  unfold State.holdLine
  split <;> exact ⟨rfl, rfl, rfl, rfl⟩

theorem SameLines.beginLine (s : State) (p : PortId) (r : LinesRead) (n : Nat) : SameLines s (s.beginLine p r n) := by
  unfold State.beginLine
  split
  · exact ⟨rfl, rfl, rfl, rfl⟩
  · exact .holdLine s p r n

theorem SameLines.beginRead (s : State) (p : PortId) : SameLines s (s.beginRead p) := by
  unfold State.beginRead
  split
  · exact .refl s
  · split
    · split
      · exact .refl s
      · exact .beginLine s p _ _
    · exact .refl s
    · split
      · exact .refl s
      · exact .holdLine s p _ _

theorem SameLines.beginReads (s : State) : SameLines s s.beginReads := .foldl .beginRead _ s

theorem SameLines.endRead (s : State) (p : PortId) (tag : Tag) : SameLines s (s.endRead p tag) := by
  unfold State.endRead
  simp only
  split <;> exact ⟨rfl, rfl, rfl, rfl⟩

theorem SameLines.completeDelivery (s : State) (p : PortId) (r : LinesRead) (l : RingLine) :
    SameLines s (s.completeDelivery p r l) := by
  have goesOn (u : State) : SameLines u (if r.remaining - 1 = 0 then u.endRead p r.tag
      else match u.deliverable p with
        | none => u.endRead p r.tag
        | some next => u.beginLine p { r with remaining := r.remaining - 1 } next.number) := by
    split
    · exact .endRead u p _
    · split
      · exact .endRead u p _
      · exact .beginLine u p _ _
  unfold State.completeDelivery
  simp only
  refine .trans ?_ (goesOn _)
  split <;> exact ⟨rfl, rfl, rfl, rfl⟩

theorem SameLines.changeNotice (s : State) (n : Nat) : SameLines s (s.changeNotice n) := by
  refine .foldl (fun s p => ?_) _ s
  unfold State.changeNoticeOn
  split <;> exact ⟨rfl, rfl, rfl, rfl⟩

theorem SameLines.strReclaim (s : State) (n : Nat) : SameLines s (s.strReclaim n) := by
  refine .foldl (fun s p => ?_) _ s
  unfold State.reclaimOn
  simp only
  split
  · split <;> exact ⟨rfl, rfl, rfl, rfl⟩
  · exact ⟨rfl, rfl, rfl, rfl⟩

theorem SameLines.closeStream (s : State) (p : PortId) (replies : Bool) : SameLines s (s.closeStream p replies) := by
  unfold State.closeStream
  split
  · simp only
    split
    · exact ⟨rfl, rfl, rfl, rfl⟩
    · split <;> exact ⟨rfl, rfl, rfl, rfl⟩
  · exact .refl s

theorem SameLines.releasePins (s : State) : SameLines s s.releasePins := by
  refine .after (.foldl (fun s t => ?_) _ _) ⟨rfl, rfl, rfl, rfl⟩
  unfold State.retireDone
  split <;> exact ⟨rfl, rfl, rfl, rfl⟩

theorem SameLines.cutPass (s : State) : SameLines s s.cutPass := by
  have uncoloured : SameLines s { s with clr := { s.clr with pass := none } } := ⟨rfl, rfl, rfl, rfl⟩
  unfold State.cutPass
  split
  · exact .refl s
  · exact (uncoloured.trans (.releasePins _)).trans ⟨rfl, rfl, rfl, rfl⟩

theorem SameLines.clrReclaim (s : State) (n : Nat) : SameLines s (s.clrReclaim n) := by
  unfold State.clrReclaim
  simp only
  split
  · exact ⟨rfl, rfl, rfl, rfl⟩
  · split
    · exact SameLines.after (.cutPass _) ⟨rfl, rfl, rfl, rfl⟩
    · exact ⟨rfl, rfl, rfl, rfl⟩

theorem SameLines.chooseWork (s : State) : SameLines s s.chooseWork := ⟨rfl, rfl, rfl, rfl⟩

theorem SameLines.countStall (s : State) : SameLines s s.countStall := by
  unfold State.countStall
  split <;> exact ⟨rfl, rfl, rfl, rfl⟩

/-! ### Occupancy (R80, R82) -/

theorem pointsSize_append (ps qs : List Point) : pointsSize (ps ++ qs) = pointsSize ps + pointsSize qs := by
  unfold pointsSize
  rw [List.map_append, List.sum_append]

theorem pointsSize_modify {f : Point → Point} (hf : ∀ p, (f p).size = p.size) (i : Nat) (ps : List Point) :
    pointsSize (ps.modify i f) = pointsSize ps := by
  have sizes : (ps.modify i f).map Point.size = ps.map Point.size := by
    apply List.ext_getElem
    · simp
    · intro j _ _
      simp only [List.getElem_map, List.getElem_modify]
      split
      · exact hf _
      · rfl
  unfold pointsSize
  rw [sizes]

theorem RingLine.recolour_size (i : Nat) (q : Point) (l : RingLine) : (l.recolour i q).size = l.size :=
  congrArg (headerSize + ·) (pointsSize_modify (f := fun p => p.recolour q) (fun _ => rfl) i l.points)

theorem committedSize_mapCommitted (r : Rng) (n : Nat) {f : RingLine → RingLine} (hf : ∀ l, (f l).size = l.size) :
    committedSize (r.mapCommitted n f) = committedSize r := by
  have size (l : RingLine) : (if l.number = n then f l else l).size = l.size := by
    split
    · exact hf l
    · rfl
  unfold committedSize Rng.mapCommitted
  rw [List.map_map]
  exact congrArg List.sum (List.map_congr_left (fun l _ => size l))

theorem closedSize_mapClosed (r : Rng) (n : Nat) {f : ClosedLine → ClosedLine} (hf : ∀ l, (f l).line.size = l.line.size) :
    closedSize (r.mapClosed n f) = closedSize r := by
  have size (l : ClosedLine) : (if l.line.number = n then f l else l).line.size = l.line.size := by
    split
    · exact hf l
    · rfl
  unfold closedSize Rng.mapClosed
  rw [List.map_map]
  exact congrArg List.sum (List.map_congr_left (fun l _ => size l))

/-- The lines of the ring take no more room than before, none joins the closed-line list, the open line and the scan
parameters stay. -/
structure LinesFit (s t : State) : Prop where
  occupancy : t.rng.occupancy ≤ s.rng.occupancy
  closed : t.rng.closed.length ≤ s.rng.closed.length
  openLine : t.rng.openLine = s.rng.openLine
  params : t.scn.params = s.scn.params

theorem SameLines.occupancy {s t : State} (h : SameLines s t) : t.rng.occupancy = s.rng.occupancy := by
  unfold Rng.occupancy committedSize closedSize openSize
  rw [h.committed, h.closed, h.openLine]

theorem SameLines.fit {s t : State} (h : SameLines s t) : LinesFit s t :=
  ⟨Nat.le_of_eq h.occupancy, Nat.le_of_eq (congrArg List.length h.closed), h.openLine, h.params⟩

theorem LinesFit.refl (s : State) : LinesFit s s := (SameLines.refl s).fit

theorem LinesFit.trans {s t u : State} (h : LinesFit s t) (k : LinesFit t u) : LinesFit s u :=
  ⟨k.occupancy.trans h.occupancy, k.closed.trans h.closed, k.openLine.trans h.openLine, k.params.trans h.params⟩

/-! ### Reclaim and commit (R85, R92) -/

theorem State.reclaimHead_committed (s : State) (l : RingLine) :
    SameLines { s with rng := { s.rng with committed := s.rng.committed.tail } } (s.reclaimHead l) :=
  ((SameLines.strReclaim _ _).trans (.clrReclaim _ _)).trans (.raiseReady _ _)

theorem LinesFit.reclaimHead {s : State} {l : RingLine} {rest : List RingLine} (head : s.rng.committed = l :: rest) :
    LinesFit s (s.reclaimHead l) := by
  have left : LinesFit s { s with rng := { s.rng with committed := s.rng.committed.tail } } := by
    refine ⟨?_, Nat.le_refl _, rfl, rfl⟩
    simp only [Rng.occupancy, committedSize, closedSize, openSize, head, List.tail_cons, List.map_cons, List.sum_cons]
    omega
  exact left.trans (s.reclaimHead_committed l).fit

theorem LinesFit.reclaimFor (bytes k : Nat) (s : State) : LinesFit s (State.reclaimFor bytes k s) := by
  induction k generalizing s with
  | zero => exact .refl s
  | succ k ih =>
    unfold State.reclaimFor
    split
    · exact .refl s
    · split
      · exact .refl s
      · rename_i l rest head
        split
        · exact (LinesFit.reclaimHead head).trans (ih _)
        · exact .refl s

theorem LinesFit.admitBytes (s : State) (bytes : Nat) : LinesFit s (s.admitBytes bytes).1 := .reclaimFor bytes _ s

/-- What has been admitted fits. -/
theorem State.admitBytes_fits {s : State} {bytes : Nat} (admitted : (s.admitBytes bytes).2 = true) :
    (s.admitBytes bytes).1.rng.occupancy + bytes ≤ (s.admitBytes bytes).1.scn.params.ringSize * 67108864 :=
  of_decide_eq_true admitted

theorem State.commitHead_lines (s : State) (l : RingLine) :
    SameLines { s with rng := s.rng.commitLine l } (s.commitHead l) := by
  have ready : SameLines { s with rng := s.rng.commitLine l }
      (State.raiseReady s { s with rng := s.rng.commitLine l, clr := s.clr.joinPending l }) :=
    SameLines.after (.raiseReady _ _) ⟨rfl, rfl, rfl, rfl⟩
  unfold State.commitHead
  simp only
  split
  · exact ready.trans ⟨rfl, rfl, rfl, rfl⟩
  · exact ready

theorem LinesFit.commitHead {s : State} {l : ClosedLine} {rest : List ClosedLine} (head : s.rng.closed = l :: rest) :
    LinesFit s (s.commitHead l.line) := by
  have numbered : ({ l.line with header := { l.line.header with lostBefore := s.rng.lostBeforeOf l.line.number } } :
      RingLine).size = l.line.size := rfl
  have moved : LinesFit s { s with rng := s.rng.commitLine l.line } := by
    refine ⟨Nat.le_of_eq ?_, by simp [Rng.commitLine], rfl, rfl⟩
    simp only [Rng.occupancy, committedSize, closedSize, openSize, Rng.commitLine, head, List.tail_cons, List.map_append,
      List.map_cons, List.map_nil, List.sum_append, List.sum_cons, List.sum_nil, numbered]
    omega
  exact moved.trans (s.commitHead_lines l.line).fit

theorem LinesFit.commitReady (s : State) : LinesFit s s.commitReady := by
  have commits (k : Nat) (s : State) : LinesFit s (State.commitReadyIn k s) := by
    induction k generalizing s with
    | zero => exact .refl s
    | succ k ih =>
      unfold State.commitReadyIn
      split
      · exact .refl s
      · rename_i l rest head
        split
        · exact (LinesFit.commitHead head).trans (ih _)
        · exact .refl s
  exact commits _ s

/-! ### Colour passes write in place (R119, R137, R142) -/

theorem LinesFit.of_committed {s t : State} (committed : committedSize t.rng = committedSize s.rng)
    (closed : t.rng.closed = s.rng.closed) (openLine : t.rng.openLine = s.rng.openLine)
    (params : t.scn.params = s.scn.params) : LinesFit s t := by
  refine ⟨Nat.le_of_eq ?_, Nat.le_of_eq (congrArg List.length closed), openLine, params⟩
  unfold Rng.occupancy closedSize openSize
  rw [committed, closed, openLine]

theorem LinesFit.of_closed {s t : State} (committed : t.rng.committed = s.rng.committed)
    (closed : closedSize t.rng = closedSize s.rng) (length : t.rng.closed.length = s.rng.closed.length)
    (openLine : t.rng.openLine = s.rng.openLine) (params : t.scn.params = s.scn.params) : LinesFit s t := by
  refine ⟨Nat.le_of_eq ?_, Nat.le_of_eq length, openLine, params⟩
  unfold Rng.occupancy committedSize openSize
  rw [committed, closed, openLine]

theorem LinesFit.mapPassLine {s t : State} {x : Pass} {f : RingLine → RingLine} (hf : ∀ l, (f l).size = l.size)
    (rng : t.rng = s.rng.mapPassLine x f) (params : t.scn.params = s.scn.params) : LinesFit s t := by
  unfold Rng.mapPassLine at rng
  cases kind : x.kind with
  | firstPass =>
    rw [kind] at rng
    refine .of_closed ?_ ?_ ?_ ?_ params <;> rw [rng]
    · rfl
    · exact closedSize_mapClosed s.rng x.line (fun l => hf l.line)
    · exact List.length_map _
    · rfl
  | task e =>
    rw [kind] at rng
    refine .of_committed ?_ ?_ ?_ params <;> rw [rng]
    · exact committedSize_mapCommitted s.rng x.line hf
    · rfl
    · rfl
  | sweep =>
    rw [kind] at rng
    refine .of_committed ?_ ?_ ?_ params <;> rw [rng]
    · exact committedSize_mapCommitted s.rng x.line hf
    · rfl
    · rfl

theorem LinesFit.colourNext (s : State) : LinesFit s s.colourNext := by
  unfold State.colourNext
  split
  · exact .refl s
  · split
    · exact .refl s
    · split
      · exact .mapPassLine (RingLine.recolour_size _ _) rfl rfl
      · exact SameLines.fit ⟨rfl, rfl, rfl, rfl⟩

theorem LinesFit.colourPoints (n : Nat) (s : State) : LinesFit s (State.colourPoints n s) := by
  induction n generalizing s with
  | zero => exact .refl s
  | succ n ih => exact (LinesFit.colourNext s).trans (ih _)

theorem LinesFit.endFirstPass (s : State) (x : Pass) : LinesFit s (s.endFirstPass x) := by
  refine LinesFit.trans ?_ ((SameLines.releasePins _).fit.trans (.commitReady _))
  exact .of_closed rfl (closedSize_mapClosed s.rng x.line (fun _ => rfl)) (List.length_map _) rfl rfl

theorem LinesFit.endStep (s : State) (x : Pass) : LinesFit s (s.endStep x) := by
  unfold State.endStep
  simp only
  split
  · exact SameLines.fit (.after (.releasePins _) ⟨rfl, rfl, rfl, rfl⟩)
  · refine LinesFit.trans ?_ (((SameLines.releasePins _).trans (.changeNotice _ _)).trans (.raiseReady _ _)).fit
    exact .of_committed (committedSize_mapCommitted s.rng x.line (fun _ => rfl)) rfl rfl rfl

theorem LinesFit.endClrTransfer (s : State) (work : Nat) : LinesFit s (s.endClrTransfer work) := by
  unfold State.endClrTransfer
  split
  · exact .refl s
  · split
    · unfold State.endPass
      split
      · exact .endFirstPass s _
      · exact .endStep s _
      · exact .endStep s _
    · exact .colourPoints _ s

end Sys2Proof.Machine

namespace Sys2Proof.Machine

/-! ### Ring writing keeps the occupancy within the ring size (R82 to R92) -/

/-- Going from `s` to `t` breaks neither bound of the ring. -/
def KeepsRing (s t : State) : Prop := RingInv s → RingInv t

theorem KeepsRing.refl (s : State) : KeepsRing s s := id

theorem KeepsRing.trans {s t u : State} (h : KeepsRing s t) (k : KeepsRing t u) : KeepsRing s u := k ∘ h

theorem LinesFit.keeps {s t : State} (h : LinesFit s t) : KeepsRing s t := by
  rintro ⟨fits, closed⟩
  exact ⟨by rw [h.params]; exact h.occupancy.trans fits, h.closed.trans closed⟩

theorem SameLines.keeps {s t : State} (h : SameLines s t) : KeepsRing s t := h.fit.keeps

theorem KeepsRing.same {s t : State} (committed : t.rng.committed = s.rng.committed) (closed : t.rng.closed = s.rng.closed)
    (openLine : t.rng.openLine = s.rng.openLine) (params : t.scn.params = s.scn.params) : KeepsRing s t :=
  SameLines.keeps ⟨committed, closed, openLine, params⟩

theorem KeepsRing.after {s t u : State} (k : KeepsRing t u) (h : SameLines s t) : KeepsRing s u := h.keeps.trans k

/-- An abandoned line leaves its room. -/
theorem KeepsRing.abandon (s : State) (n lost : Nat) : KeepsRing s (s.abandon n lost) := by
  rintro ⟨fits, closed⟩
  exact ⟨(Nat.add_le_add_left (Nat.zero_le _) _).trans fits, closed⟩

/-- The ring's open line grows by no more than the bytes that were admitted. -/
theorem KeepsRing.admitted {s : State} {o : RingOpen} {bytes : Nat} (admitted : (s.admitBytes bytes).2 = true)
    (grown : o.size ≤ openSize s.rng + bytes) : KeepsRing s
      { (s.admitBytes bytes).1 with rng := { (s.admitBytes bytes).1.rng with openLine := some o } } := by
  rintro ⟨-, closed⟩
  have fits := State.admitBytes_fits admitted
  have fit := LinesFit.admitBytes s bytes
  refine ⟨?_, fit.closed.trans closed⟩
  have held : openSize (s.admitBytes bytes).1.rng = openSize s.rng := by
    unfold openSize
    rw [fit.openLine]
  unfold Rng.occupancy at fits ⊢
  have size : openSize { (s.admitBytes bytes).1.rng with openLine := some o } = o.size := rfl
  rw [size]
  exact le_trans (by simp only [committedSize, closedSize]; omega) fits

theorem KeepsRing.openItem (s : State) (n : Nat) : KeepsRing s (s.openItem n) := by
  have begun : KeepsRing s { s with rng := { s.rng with discarding := none } } := .same rfl rfl rfl rfl
  unfold State.openItem
  simp only
  refine begun.trans ?_
  split
  · rename_i fits
    exact .admitted fits (Nat.le_add_left _ _)
  · exact (LinesFit.admitBytes _ _).keeps.trans (.abandon _ _ _)

theorem KeepsRing.pointItem (s : State) (n : Nat) (p : Point) : KeepsRing s (s.pointItem n p) := by
  unfold State.pointItem
  split
  · exact .refl s
  · rename_i o line
    simp only
    split
    · rename_i fits
      refine .admitted fits (Nat.le_of_eq ?_)
      have grown : pointsSize (o.points ++ [p.asWritten]) = pointsSize o.points + p.size := pointsSize_append _ _
      simp only [RingOpen.size, openSize, line, Option.map_some, Option.getD_some, grown, Nat.add_assoc]
    · exact (LinesFit.admitBytes _ _).keeps.trans (.abandon _ _ _)

/-- A close notice moves the ring's open line to the closed-line list, which had room for it. -/
theorem KeepsRing.closeNotice {s : State} {o : RingOpen} (line : s.rng.openLine = some o) (room : s.rng.closed.length < 32)
    (h : LineHeader) : KeepsRing s (s.closeNotice h o) := by
  have joined {u : State} {l : ClosedLine} (size : l.line.size = o.size) (committed : u.rng.committed = s.rng.committed)
      (closed : u.rng.closed = s.rng.closed ++ [l]) (openLine : u.rng.openLine = none)
      (params : u.scn.params = s.scn.params) : KeepsRing s u := by
    rintro ⟨fits, -⟩
    refine ⟨?_, by rw [closed, List.length_append]; exact room⟩
    rw [params]
    refine Nat.le_trans (Nat.le_of_eq ?_) fits
    simp only [Rng.occupancy, committedSize, closedSize, openSize, committed, closed, openLine, line, List.map_append,
      List.map_cons, List.map_nil, List.sum_append, List.sum_cons, List.sum_nil, Option.map_none, Option.map_some,
      Option.getD_none, Option.getD_some, size]
    omega
  unfold State.closeNotice
  simp only
  refine KeepsRing.trans ?_ (LinesFit.commitReady _).keeps
  exact joined rfl rfl rfl rfl rfl

theorem KeepsRing.closeItem {s : State} (room : s.rng.closed.length < 32) (h : LineHeader) :
    KeepsRing s (s.closeItem h) := by
  unfold State.closeItem
  split
  · exact .refl s
  · rename_i o line
    exact .closeNotice line room h

theorem KeepsRing.discardItem (s : State) (d : Discarding) (x : FifoItem) : KeepsRing s (s.discardItem d x) := by
  unfold State.discardItem
  split
  · exact .refl s
  · exact .same rfl rfl rfl rfl
  · split
    · exact .refl s
    · exact .same rfl rfl rfl rfl

/-- A ring writer that is not stalled by a close notice has room for the line. -/
theorem State.closed_room_of_not_stalled {s : State} {n : Nat} {h : LineHeader} {rest : List FifoItem}
    (fifo : s.lnb.fifo = .closeNotice n h :: rest) (kept : s.rng.discards (.closeNotice n h) = none)
    (goes : s.writerStalled = false) : s.rng.closed.length < 32 := by
  unfold State.writerStalled at goes
  rw [fifo] at goes
  simp only [kept, Option.isNone_none, Bool.true_and] at goes
  exact Nat.lt_of_not_le (of_decide_eq_false goes)

theorem KeepsRing.writeItem {s : State} (goes : s.writerStalled = false) : KeepsRing s s.writeItem := by
  unfold State.writeItem
  split
  · exact .refl s
  · rename_i x rest fifo
    have taken : KeepsRing s { s.withFifo rest with rng := { (s.withFifo rest).rng with stallCounted := false } } :=
      .same rfl rfl rfl rfl
    simp only
    refine taken.trans ?_
    split
    · exact .discardItem _ _ _
    · rename_i kept
      split
      · exact .openItem _ _
      · exact .pointItem _ _ _
      · refine .closeItem ?_ _
        exact State.closed_room_of_not_stalled (s := s) fifo kept goes

theorem KeepsRing.grantWriter {s : State} (requests : s.writerRequests = true) (waiting : Bool) :
    KeepsRing s (s.grantWriter waiting) := by
  unfold State.writerRequests at requests
  rw [Bool.and_eq_true, Bool.not_eq_true', Bool.not_eq_true'] at requests
  obtain ⟨-, goes⟩ := requests
  unfold State.grantWriter
  exact KeepsRing.after (.writeItem goes) ⟨rfl, rfl, rfl, rfl⟩

/-- In HOLD-OFF a requesting ring writer goes first; in NORMAL until its run is spent while another waits (R95). -/
def State.writerFirst (s : State) : Bool :=
  match s.rng.mode with
  | .holdOff => true
  | .normal => decide (s.rng.run < 4) || s.winner.isNone

theorem State.grant_busy {s : State} {t : Transfer} (busy : s.rng.inProgress = some t) : s.grant = s := by
  rw [State.grant, busy]

theorem State.grant_idle {s : State} (idle : s.rng.inProgress = none) : s.grant =
    if s.writerRequests && s.writerFirst then s.grantWriter s.winner.isSome else s.winner.elim s s.grantRR := by
  have round : (match s.winner with | none => s | some x => s.grantRR x) = s.winner.elim s s.grantRR := by
    cases s.winner <;> rfl
  rw [← round, State.grant, idle]
  rfl

theorem KeepsRing.grant (s : State) : KeepsRing s s.grant := by
  cases progress : s.rng.inProgress with
  | some t =>
    rw [State.grant_busy progress]
    exact .refl s
  | none =>
    rw [State.grant_idle progress]
    split
    · rename_i granted
      exact .grantWriter (Bool.and_eq_true_iff.1 granted).1 _
    · cases s.winner with
      | none => exact .refl s
      | some x => exact .same rfl rfl rfl rfl

/-- The end of a step: only the grant writes to the ring. -/
theorem KeepsRing.settle {s t : State} (h : KeepsRing s t) : KeepsRing s t.settle := by
  have follows (u : State) : KeepsRing u u.beginReads.chooseWork.countStall :=
    (((SameLines.beginReads u).trans (.chooseWork _)).trans (.countStall _)).keeps
  exact ((h.trans (follows t)).trans (.grant _)).trans (follows _)

/-- A change of ring size empties the ring. -/
theorem State.resizeRing_lines (s : State) : SameLines { s with rng := s.rng.emptied } s.resizeRing := by
  have discarded : SameLines { s with rng := s.rng.emptied } ({ s with rng := s.rng.emptied } : State).clrDiscard :=
    SameLines.after (.cutPass _) ⟨rfl, rfl, rfl, rfl⟩
  exact discarded.trans (.foldl (fun s p => .closeStream s p true) _ _)

theorem RingInv.resizeRing (s : State) : RingInv s.resizeRing := by
  have emptied : RingInv { s with rng := s.rng.emptied } := ⟨Nat.zero_le _, Nat.zero_le _⟩
  exact s.resizeRing_lines.keeps emptied

end Sys2Proof.Machine

namespace Sys2Proof.Machine

/-! ### Time, pulses and the scan's changes of state leave the ring alone -/

theorem KeepsRing.wrapActions (s : State) : KeepsRing s s.wrapActions := by
  apply KeepsRing.settle
  exact ((SameLines.closePulses s (fun _ => true)).trans ⟨rfl, rfl, rfl, rfl⟩).keeps

theorem KeepsRing.elapse (s : State) (dt : Nat) : KeepsRing s (s.elapse dt) := by
  unfold State.elapse
  split
  · exact .same rfl rfl rfl rfl
  · exact KeepsRing.after (.wrapActions _) ⟨rfl, rfl, rfl, rfl⟩

theorem KeepsRing.timed {f : State → State} (hf : ∀ e, KeepsRing e (f e)) (s : State) (dt : Nat) :
    KeepsRing s (f (s.elapse dt)) := (KeepsRing.elapse s dt).trans (hf _)

theorem SameLines.enterEmit (s : State) (isBreak : Bool) (id : BitVec 16) (t : Time) :
    SameLines s (s.enterEmit isBreak id t) := (SameLines.closePulses s _).trans ⟨rfl, rfl, rfl, rfl⟩

theorem SameLines.takeEmit (s : State) (id : BitVec 16) (t : Time) : SameLines s (s.takeEmit id t) := by
  unfold State.takeEmit
  split
  · unfold State.testEmit
    split
    · exact ⟨rfl, rfl, rfl, rfl⟩
    · split
      · exact .enterEmit s _ id t
      · exact SameLines.after (.enterEmit _ _ id t) ⟨rfl, rfl, rfl, rfl⟩
      · exact ⟨rfl, rfl, rfl, rfl⟩
      · exact SameLines.after (.enterEmit _ _ id t) ⟨rfl, rfl, rfl, rfl⟩
  all_goals exact ⟨rfl, rfl, rfl, rfl⟩

theorem SameLines.takeEcho (s : State) (x : EchoRec) : SameLines s (s.takeEcho x) := by
  have processed : SameLines s (s.processEcho x) := by
    unfold State.processEcho
    simp only
    split <;> exact ⟨rfl, rfl, rfl, rfl⟩
  unfold State.takeEcho
  split
  · exact processed
  · exact processed
  all_goals exact ⟨rfl, rfl, rfl, rfl⟩

theorem SameLines.clearSpent_closeLine (s : State) (c : CloseCause) : SameLines s (s.closeLine c).clearSpent :=
  (SameLines.closeLine s c).trans ⟨rfl, rfl, rfl, rfl⟩

theorem SameLines.enterFault (s : State) (c : FaultCause) : SameLines s (s.enterFault c) := by
  have discarded : SameLines s { s with scn := s.scn.toFault c, eca := s.eca.discardPulses } := ⟨rfl, rfl, rfl, rfl⟩
  have aborted := discarded.trans (.clearSpent_closeLine _ .aborted)
  have replied (u : State) (o : PortTag) : SameLines u (State.failReply c u o) := ⟨rfl, rfl, rfl, rfl⟩
  exact (aborted.trans (.foldl replied s.scn.pendingReplies _)).trans ⟨rfl, rfl, rfl, rfl⟩

theorem SameLines.enterRunning (s : State) (t : Time) : SameLines s (s.enterRunning t) := by
  have started (u : State) (r : Option PortTag) : SameLines u (u.startDone r) := by
    unfold State.startDone
    split <;> exact ⟨rfl, rfl, rfl, rfl⟩
  have entered : SameLines s { s with
      scn := s.scn.toRunning (s.ang.azimuthQuery t)
      ang := { s.ang with travel := 0 }
      eca := { s.eca with prevEmit := none } } := ⟨rfl, rfl, rfl, rfl⟩
  have cleared (u : State) : SameLines u (u.raiseAll evState).clearSpent := ⟨rfl, rfl, rfl, rfl⟩
  exact ((entered.trans (started _ s.scn.startReply)).trans (cleared _)).trans (ExsKept.exsEnterRunning _).sameLines

theorem SameLines.completeDrain (s : State) : SameLines s s.completeDrain := by
  have emptied : SameLines s (s.closePulses (fun _ => true)).emptyHistory :=
    (SameLines.closePulses s _).trans ⟨rfl, rfl, rfl, rfl⟩
  have drained : SameLines s s.drainPulses := emptied.trans (.clearSpent_closeLine _ .drain)
  have stopped (u : State) (o : PortTag) : SameLines u (u.stopDone o) := ⟨rfl, rfl, rfl, rfl⟩
  have idle : SameLines s.drainPulses { s.drainPulses with scn :=
      { s.drainPulses.scn with state := .idle, drain := none, stopReplies := [] } } := ⟨rfl, rfl, rfl, rfl⟩
  exact ((drained.trans idle).trans (.foldl stopped s.scn.stopReplies _)).trans ⟨rfl, rfl, rfl, rfl⟩

/-! ### Reports of ANG and ECA -/

theorem SameLines.revolutionReport (s : State) (v : Verdict) (t : Time) : SameLines s (s.revolutionReport v t) := by
  have armed : SameLines s (s.armedReport v t) := by
    unfold State.armedReport
    split
    · exact ⟨rfl, rfl, rfl, rfl⟩
    · exact ⟨rfl, rfl, rfl, rfl⟩
    · split
      · exact ⟨rfl, rfl, rfl, rfl⟩
      · split
        · exact .enterRunning s t
        · exact ⟨rfl, rfl, rfl, rfl⟩
  unfold State.revolutionReport
  split
  · exact armed
  · split
    · exact .enterFault s _
    · exact .refl s
    · exact .refl s
  all_goals exact .refl s

theorem SameLines.bandLoss (s : State) (c : BandLossCause) : SameLines s (s.bandLoss c) := by
  have lost : SameLines s (s.setAng s.ang.bandLoss) := ⟨rfl, rfl, rfl, rfl⟩
  have reported (u : State) : SameLines u (u.bandLossReport c) := by
    unfold State.bandLossReport
    split
    · exact ⟨rfl, rfl, rfl, rfl⟩
    · exact .enterFault u _
    all_goals exact .refl u
  exact lost.trans (reported _)

theorem SameLines.linkReport (s : State) : SameLines s s.linkReport := by
  unfold State.linkReport
  split
  · exact .enterFault s _
  · exact .enterFault s _
  all_goals exact .refl s

theorem SameLines.recordReport (s : State) (code : Byte) : SameLines s (s.recordReport code) := by
  unfold State.recordReport
  split
  · exact .enterFault s _
  all_goals exact .refl s

theorem SameLines.spanTest (s : State) : SameLines s s.spanTest := by
  unfold State.spanTest
  split
  · split <;> exact ⟨rfl, rfl, rfl, rfl⟩
  all_goals exact .refl s

theorem SameLines.raiseIndexFault (s : State) (r : IndexResult) : SameLines s (s.raiseIndexFault r) := by
  unfold State.raiseIndexFault
  split <;> exact ⟨rfl, rfl, rfl, rfl⟩

theorem SameLines.mirrorEdge (s : State) (dir : Dir) (active : Bool) : SameLines s (s.mirrorEdge dir active) := by
  have edge : SameLines s (s.setAng ((s.ang.mirrorEdge s.tb dir active).1.restartStall s.scn.params s.tb)) :=
    ⟨rfl, rfl, rfl, rfl⟩
  have counted : SameLines s (s.countMirror dir active) := edge.trans (.raiseIndexFault _ _)
  have ended (u : State) : SameLines u u.endRevolution := SameLines.after (.revolutionReport _ _ _) ⟨rfl, rfl, rfl, rfl⟩
  cases dir with
  | backward => exact counted.trans (.bandLoss _ .reverse)
  | forward =>
    rw [State.mirrorEdge_forward]
    split
    · exact counted.trans (ended _)
    · exact counted

theorem SameLines.azimuthEdge (s : State) (dir : Dir) (active : Bool) : SameLines s (s.azimuthEdge dir active) := by
  have edge : SameLines s (s.setAng (s.ang.azimuthEdge s.tb dir active).1) := ⟨rfl, rfl, rfl, rfl⟩
  exact ((edge.trans (.raiseIndexFault _ _)).trans (.spanTest _)).trans (ExsKept.exsTravel _ dir).sameLines

theorem SameLines.takeEdge (s : State) (axis : Axis) (kind : EdgeKind) (active : Bool) :
    SameLines s (s.takeEdge axis kind active) := by
  unfold State.takeEdge
  split
  · exact .mirrorEdge s _ active
  · exact .mirrorEdge s _ active
  · exact .azimuthEdge s _ active
  · exact .azimuthEdge s _ active
  · unfold State.seeIndex
    split <;> exact ⟨rfl, rfl, rfl, rfl⟩

theorem KeepsRing.setAng (s : State) (g : Ang) : KeepsRing s (s.setAng g) := .same rfl rfl rfl rfl

theorem KeepsRing.stallExpiry (s : State) : KeepsRing s s.stallExpiry := by
  unfold State.stallExpiry
  split
  · apply KeepsRing.settle
    exact SameLines.keeps (.after (.bandLoss _ _) ⟨rfl, rfl, rfl, rfl⟩)
  · exact .refl s

theorem SameLines.rangingUp (s : State) : SameLines s s.rangingUp := by
  unfold State.rangingUp
  split <;> exact ⟨rfl, rfl, rfl, rfl⟩

theorem KeepsRing.rangingLoss (s : State) : KeepsRing s s.rangingLoss := by
  unfold State.rangingLoss
  split
  · exact .refl s
  · apply KeepsRing.settle
    exact SameLines.keeps (.after (.linkReport _) ⟨rfl, rfl, rfl, rfl⟩)

theorem KeepsRing.onRecord {k : State → State} (hk : ∀ s, KeepsRing s (k s)) (s : State) : KeepsRing s (s.onRecord k) := by
  unfold State.onRecord
  split
  · exact .refl s
  · exact hk s

theorem SameLines.takeFaultRecord (s : State) (code : Byte) : SameLines s (s.takeFaultRecord code) :=
  SameLines.after (.recordReport _ code) ⟨rfl, rfl, rfl, rfl⟩

theorem KeepsRing.armedTimer (s : State) : KeepsRing s
    (if decide (s.scn.state = .armed) && timerDue s.scn.armed s.tb then (s.enterFault .mirrorBand).settle else s) := by
  split
  · exact (SameLines.enterFault s _).keeps.settle
  · exact .refl s

theorem KeepsRing.drainTimer (s : State) : KeepsRing s
    (if decide (s.scn.state = .draining) && timerDue s.scn.drain s.tb then s.completeDrain.settle else s) := by
  split
  · exact (SameLines.completeDrain s).keeps.settle
  · exact .refl s

theorem SameLines.takeAbandonment (s : State) : SameLines s s.takeAbandonment := by
  unfold State.takeAbandonment
  split <;> exact ⟨rfl, rfl, rfl, rfl⟩

/-! ### Command frames and their data -/

theorem KeepsRing.refuse (s : State) (p : PortId) (tag : Tag) (c : SenseClass) (code : Nat) (info : Option Nat) :
    KeepsRing s (s.refuse p tag c code info) := .same rfl rfl rfl rfl

theorem KeepsRing.client {body : State → State} (hb : ∀ s, KeepsRing s (body s)) (p : PortId) (tag : Tag)
    (allowed : Role → Bool) (s : State) : KeepsRing s (client p tag allowed body s) := by
  unfold Machine.client tagAndRole
  split
  · exact .refl s
  · split
    · exact .same rfl rfl rfl rfl
    · split
      · exact KeepsRing.after (hb _) ⟨rfl, rfl, rfl, rfl⟩
      · exact .same rfl rfl rfl rfl

theorem KeepsRing.clientKeepSense {body : State → State} (hb : ∀ s, KeepsRing s (body s)) (p : PortId) (tag : Tag)
    (s : State) : KeepsRing s (clientKeepSense p tag body s) := by
  unfold Machine.clientKeepSense tagAndRole
  split
  · exact .refl s
  · split
    · exact .same rfl rfl rfl rfl
    · split
      · exact hb s
      · exact .same rfl rfl rfl rfl

theorem KeepsRing.clientSkipTag {body : State → State} (hb : ∀ s, KeepsRing s (body s)) (p : PortId) (s : State) :
    KeepsRing s (clientSkipTag p body s) := by
  unfold Machine.clientSkipTag
  split
  · exact .refl s
  · exact KeepsRing.after (hb _) ⟨rfl, rfl, rfl, rfl⟩

theorem KeepsRing.inIdle {k : State → State} (hk : ∀ s, KeepsRing s (k s)) (s : State) (p : PortId) (tag : Tag) :
    KeepsRing s (s.inIdle p tag k) := by
  by_cases idle : s.scn.state = .idle
  · rw [State.inIdle_idle idle]
    exact hk s
  · rw [State.inIdle_other idle]
    exact .same rfl rfl rfl rfl

theorem KeepsRing.idleAtLastByte {k : State → State} (hk : ∀ s, KeepsRing s (k s)) (s : State) (p : PortId) (tag : Tag) :
    KeepsRing s (s.idleAtLastByte p tag k) := by
  by_cases idle : s.scn.state = .idle
  · rw [State.idleAtLastByte_idle idle]
    exact hk s
  · rw [State.idleAtLastByte_other idle]
    exact .same rfl rfl rfl rfl

theorem KeepsRing.countTest {k : State → State} (hk : ∀ s, KeepsRing s (k s)) (s : State) (p : PortId) (tag : Tag)
    (count : Byte) (largest operand : Nat) : KeepsRing s (s.countTest p tag count largest operand k) := by
  unfold State.countTest
  split
  · exact .same rfl rfl rfl rfl
  · exact hk s

theorem KeepsRing.gatherInIdle (s : State) (p : PortId) (tag : Tag) (like : Job → Bool) (j : Job) :
    KeepsRing s (s.inIdle p tag (fun s => s.gatherAlone p tag like j)) := by
  refine .inIdle (fun s => ?_) s p tag
  unfold State.gatherAlone
  split <;> exact .same rfl rfl rfl rfl

theorem SameLines.deliver (s : State) (p : PortId) (tag : Tag) (code : Byte) (ps : List (List Byte)) :
    SameLines s (s.deliver p tag code ps) := by
  unfold State.deliver
  split <;> exact ⟨rfl, rfl, rfl, rfl⟩

theorem KeepsRing.deliver (s : State) (p : PortId) (tag : Tag) (code : Byte) (ps : List (List Byte)) :
    KeepsRing s (s.deliver p tag code ps) := (SameLines.deliver s p tag code ps).keeps

theorem SameLines.pump (s : State) (p : PortId) (tag : Tag) : SameLines s (s.pump p tag) := by
  unfold State.pump
  split
  · split
    · exact .deliver s p tag _ _
    · exact .refl s
  · exact .refl s

/-! ### Scan commands -/

theorem KeepsRing.takeScanStart (s : State) (p : PortId) (tag : Tag) : KeepsRing s (s.takeScanStart p tag) := by
  refine .inIdle (fun s => ?_) s p tag
  exact .same rfl rfl rfl rfl

theorem KeepsRing.takeScanStop (s : State) (p : PortId) (tag : Tag) : KeepsRing s (s.takeScanStop p tag) := by
  have aborted (u : State) : KeepsRing u u.abortStartReply := by
    unfold State.abortStartReply
    split <;> exact .same rfl rfl rfl rfl
  have disarmed : KeepsRing s { s with scn := { s.scn with state := .idle, armed := none, inBand := 0 } } := .same rfl rfl rfl rfl
  have answered (u : State) : KeepsRing u ((u.answer p tag .done).raiseAll evState) := .same rfl rfl rfl rfl
  unfold State.takeScanStop
  split
  · exact .same rfl rfl rfl rfl
  · exact (disarmed.trans (aborted _)).trans (answered _)
  all_goals exact .same rfl rfl rfl rfl

theorem KeepsRing.takeFaultClear (s : State) (p : PortId) (tag : Tag) : KeepsRing s (s.takeFaultClear p tag) := by
  unfold State.takeFaultClear
  split <;> exact .same rfl rfl rfl rfl

/-- A ring with nothing in it is within any ring size. -/
theorem RingInv.of_empty {s : State} (committed : s.rng.committed = []) (closed : s.rng.closed = [])
    (openLine : s.rng.openLine = none) : RingInv s := by
  simp [RingInv, Rng.occupancy, committedSize, closedSize, openSize, committed, closed, openLine]

/-- RESTART empties the ring (R59, R81). -/
theorem KeepsRing.takeRestart (s : State) (p : PortId) (tag : Tag) : KeepsRing s (s.takeRestart p tag) :=
  fun _ => .of_empty rfl rfl rfl

/-! ### Data blocks -/

/-- A new parameter set either keeps the ring size or empties the ring (R46, R93). -/
theorem KeepsRing.installScanParams (s : State) (p : PortId) (tag : Tag) (q : ScanParams) :
    KeepsRing s (s.installScanParams p tag q) := by
  rintro ⟨fits, closed⟩
  unfold State.installScanParams
  simp only
  split
  · rename_i size
    refine ⟨?_, closed⟩
    show s.rng.occupancy ≤ q.ringSize * 67108864
    rw [size]
    exact fits
  · exact .resizeRing _

theorem KeepsRing.completeScanSetup (s : State) (p : PortId) (tag : Tag) (block : List Byte) :
    KeepsRing s (s.completeScanSetup p tag block) := by
  refine .idleAtLastByte (fun s => ?_) s p tag
  split
  · exact .same rfl rfl rfl rfl
  · exact .installScanParams s p tag _

theorem KeepsRing.completeMirrorCalibrate (s : State) (p : PortId) (tag : Tag) (data : List Byte) :
    KeepsRing s (s.completeMirrorCalibrate p tag data) := by
  refine .idleAtLastByte (fun s => ?_) s p tag
  exact .same rfl rfl rfl rfl

theorem KeepsRing.completeMaskLoad (s : State) (p : PortId) (tag : Tag) (n : Nat) (data : List Byte) :
    KeepsRing s (s.completeMaskLoad p tag n data) := by
  refine .idleAtLastByte (fun s => ?_) s p tag
  simp only
  split <;> exact .same rfl rfl rfl rfl

theorem KeepsRing.completeCameraSetup (s : State) (p : PortId) (tag : Tag) (block : List Byte) :
    KeepsRing s (s.completeCameraSetup p tag block) := by
  refine .idleAtLastByte (fun s => ?_) s p tag
  split <;> exact .same rfl rfl rfl rfl

theorem KeepsRing.completeStationLoad (s : State) (p : PortId) (tag : Tag) (n : Nat) (data : List Byte) :
    KeepsRing s (s.completeStationLoad p tag n data) := by
  refine .idleAtLastByte (fun s => ?_) s p tag
  simp only
  split <;> exact .same rfl rfl rfl rfl

theorem SameLines.takeCells (s : State) (k : Nat) (bytes : List Byte) : SameLines s (s.takeCells k bytes) := by
  unfold State.takeCells
  split <;> exact ⟨rfl, rfl, rfl, rfl⟩

theorem SameLines.placeTile (s : State) (p : PortId) (tag : Tag) (ops : TileOperands) (w : AngularWindow) :
    SameLines s (s.placeTile p tag ops w).1 := by
  unfold State.placeTile
  split
  · exact ⟨rfl, rfl, rfl, rfl⟩
  · split
    · split <;> exact ⟨rfl, rfl, rfl, rfl⟩
    · exact ⟨rfl, rfl, rfl, rfl⟩

theorem SameLines.gatherDescriptor (s : State) (p : PortId) (tag : Tag) (ops : TileOperands) (bytes : List Byte) :
    SameLines s (s.gatherDescriptor p tag ops bytes) := by
  have placed := SameLines.placeTile s p tag ops (descriptorOf bytes)
  unfold State.gatherDescriptor State.completeDescriptor
  simp only
  split
  · exact ⟨rfl, rfl, rfl, rfl⟩
  · split
    · exact ⟨rfl, rfl, rfl, rfl⟩
    · split
      · rename_i s1 k h
        rw [h] at placed
        exact placed.trans (.takeCells s1 k _)
      · rename_i s1 h
        rw [h] at placed
        exact placed

theorem KeepsRing.gather {complete : State → List Byte → State} (hc : ∀ s x, KeepsRing s (complete s x)) (s : State)
    (p : PortId) (tag : Tag) (need : Nat) (bytes : List Byte) (mk : List Byte → Job) :
    KeepsRing s (s.gather p tag need bytes mk complete) := by
  unfold State.gather
  split
  · exact .same rfl rfl rfl rfl
  · exact hc s _

theorem KeepsRing.takeData (s : State) (p : PortId) (tag : Tag) (payload : List Byte) :
    KeepsRing s (s.takeData p tag payload) := by
  have stray : KeepsRing s (s.stray p) := .same rfl rfl rfl rfl
  unfold State.takeData
  split
  · exact stray
  · split
    · exact .gather (fun s x => .completeMirrorCalibrate s p tag x) s p tag _ _ _
    · exact .gather (fun s x => .completeScanSetup s p tag x) s p tag _ _ _
    · exact .gather (fun s x => .completeMaskLoad s p tag _ x) s p tag _ _ _
    · exact .gather (fun s x => .completeCameraSetup s p tag x) s p tag _ _ _
    · exact .gather (fun s x => .completeStationLoad s p tag _ x) s p tag _ _ _
    · exact (SameLines.gatherDescriptor s p tag _ _).keeps
    · unfold State.cellFrame
      split
      · exact stray
      · split
        · exact (SameLines.takeCells s _ payload).keeps
        · exact stray
    all_goals exact stray

theorem KeepsRing.dataFrame (s : State) (p : PortId) (tag : Tag) (payload : List Byte) :
    KeepsRing s (s.dataFrame p tag payload) := by
  unfold State.dataFrame
  split
  · exact .refl s
  · split
    · exact .same rfl rfl rfl rfl
    · exact (KeepsRing.takeData s p tag payload).settle

/-! ### Commands that end early, client links, the transmitter -/

theorem SameLines.undo (s : State) (p : PortId) (tag : Tag) (j : Job) : SameLines s (s.undo p tag j) := by
  cases j
  case tileCells k =>
    show SameLines s (s.abortLoad k)
    unfold State.abortLoad
    split <;> exact ⟨rfl, rfl, rfl, rfl⟩
  all_goals exact ⟨rfl, rfl, rfl, rfl⟩

theorem KeepsRing.takeTagAbort (s : State) (p : PortId) (tag : Tag) (target : Byte) :
    KeepsRing s (s.takeTagAbort p tag target) := by
  unfold State.takeTagAbort
  split
  · exact .same rfl rfl rfl rfl
  · rename_i t _
    have aborted : SameLines s (s.abortTag p t) := by
      unfold State.abortTag
      split
      · exact .refl s
      · exact (SameLines.undo s p t _).trans ⟨rfl, rfl, rfl, rfl⟩
    apply KeepsRing.settle
    exact (aborted.trans ⟨rfl, rfl, rfl, rfl⟩).keeps

theorem SameLines.portReset (s : State) (p : PortId) : SameLines s (s.portReset p) := by
  have dropped (u : State) (t : Tag) : SameLines u (State.dropTag p u t) := by
    unfold State.dropTag
    split
    · exact .refl u
    · exact (SameLines.undo u p t _).trans ⟨rfl, rfl, rfl, rfl⟩
  have cleared : SameLines s ((allTags.foldl (State.dropTag p) s).modPort p Port.cleared) :=
    (SameLines.foldl dropped allTags s).trans ⟨rfl, rfl, rfl, rfl⟩
  exact (cleared.trans (.closeStream _ p false)).trans ⟨rfl, rfl, rfl, rfl⟩

theorem KeepsRing.resetPort (s : State) (p : PortId) (tag : Tag) :
    KeepsRing s ((s.portReset p).answer p tag .done).settle := by
  apply KeepsRing.settle
  exact ((SameLines.portReset s p).trans ⟨rfl, rfl, rfl, rfl⟩).keeps

theorem KeepsRing.clientUp (s : State) (p : PortId) : KeepsRing s (s.clientUp p) := by
  unfold State.clientUp
  split <;> exact .same rfl rfl rfl rfl

theorem KeepsRing.clientLoss (s : State) (p : PortId) : KeepsRing s (s.clientLoss p) := by
  unfold State.clientLoss
  split
  · exact .refl s
  · apply KeepsRing.settle
    exact SameLines.keeps (.after (.portReset _ p) ⟨rfl, rfl, rfl, rfl⟩)

theorem KeepsRing.badFrame (s : State) (p : PortId) : KeepsRing s (s.badFrame p) := by
  unfold State.badFrame
  split <;> exact .same rfl rfl rfl rfl

theorem KeepsRing.frameSent (s : State) (p : PortId) : KeepsRing s (s.frameSent p) := by
  unfold State.frameSent
  split
  · exact .refl s
  · apply KeepsRing.settle
    exact SameLines.keeps (.after (.foldl (fun s t => .pump s p t) allTags _) ⟨rfl, rfl, rfl, rfl⟩)

/-! ### Commands of the other blocks -/

theorem KeepsRing.takeMaskLoad (s : State) (p : PortId) (tag : Tag) (empty : Bool) (count : Byte) :
    KeepsRing s (s.takeMaskLoad p tag empty count) := by
  unfold State.takeMaskLoad
  split
  · refine .inIdle (fun s => ?_) s p tag
    split <;> exact .same rfl rfl rfl rfl
  · exact .countTest (fun s => .gatherInIdle s p tag _ _) s p tag _ _ _

theorem KeepsRing.takeStationLoad (s : State) (p : PortId) (tag : Tag) (empty : Bool) (count : Byte) :
    KeepsRing s (s.takeStationLoad p tag empty count) := by
  unfold State.takeStationLoad
  split
  · refine .inIdle (fun s => ?_) s p tag
    split <;> exact .same rfl rfl rfl rfl
  · exact .countTest (fun s => .gatherInIdle s p tag _ _) s p tag _ _ _

theorem KeepsRing.takeExposureDrop (s : State) (p : PortId) (tag : Tag) (exposure : BitVec 32) :
    KeepsRing s (s.takeExposureDrop p tag exposure) := by
  unfold State.takeExposureDrop
  split
  · exact .same rfl rfl rfl rfl
  · split
    case h_3 =>
      apply KeepsRing.settle
      exact .same rfl rfl rfl rfl
    all_goals exact .same rfl rfl rfl rfl

theorem KeepsRing.takeTileLoad (s : State) (p : PortId) (tag : Tag) (exposure : BitVec 32) (priority w h : Byte) :
    KeepsRing s (s.takeTileLoad p tag exposure priority w h) := by
  unfold State.takeTileLoad
  split <;> exact .same rfl rfl rfl rfl

theorem KeepsRing.takeTileRetire (s : State) (p : PortId) (tag : Tag) (slot : Byte) (exposure : BitVec 32) :
    KeepsRing s (s.takeTileRetire p tag slot exposure) := by
  unfold State.takeTileRetire
  split
  · exact .same rfl rfl rfl rfl
  · split
    · exact .same rfl rfl rfl rfl
    · split
      · exact .same rfl rfl rfl rfl
      · split <;> exact .same rfl rfl rfl rfl
      · split
        · unfold State.retireTile
          split <;> exact .same rfl rfl rfl rfl
        · exact .same rfl rfl rfl rfl

theorem KeepsRing.takeStreamOpen (s : State) (p : PortId) (tag : Tag) (mode start : Byte) (line : BitVec 32) :
    KeepsRing s (s.takeStreamOpen p tag mode start line) := by
  unfold State.takeStreamOpen
  split
  · exact .same rfl rfl rfl rfl
  · split
    · exact .same rfl rfl rfl rfl
    · split
      · exact .same rfl rfl rfl rfl
      · unfold State.openStream
        simp only
        split <;> exact .same rfl rfl rfl rfl

theorem KeepsRing.takeStreamClose (s : State) (p : PortId) (tag : Tag) : KeepsRing s (s.takeStreamClose p tag) := by
  apply KeepsRing.settle
  exact ((SameLines.closeStream s p true).trans ⟨rfl, rfl, rfl, rfl⟩).keeps

theorem KeepsRing.takeLinesRead (s : State) (p : PortId) (tag : Tag) (count : Byte) :
    KeepsRing s (s.takeLinesRead p tag count) := by
  have started (u : State) (n : Nat) : SameLines u (u.startRead p tag n) := by
    unfold State.startRead
    simp only
    split
    · exact SameLines.after (.beginLine _ p _ _) ⟨rfl, rfl, rfl, rfl⟩
    · exact ⟨rfl, rfl, rfl, rfl⟩
  refine .countTest (fun s => ?_) s p tag _ _ _
  split
  · split
    · exact .same rfl rfl rfl rfl
    · exact (started s _).keeps.settle
  · exact .same rfl rfl rfl rfl

theorem KeepsRing.takeLinesRelease (s : State) (p : PortId) (tag : Tag) (n : BitVec 32) :
    KeepsRing s (s.takeLinesRelease p tag n) := by
  unfold State.takeLinesRelease
  split <;> exact .same rfl rfl rfl rfl

theorem KeepsRing.takeLinesCheck (s : State) (p : PortId) (tag : Tag) : KeepsRing s (s.takeLinesCheck p tag) :=
  KeepsRing.after (.deliver _ p tag _ _) ⟨rfl, rfl, rfl, rfl⟩

theorem KeepsRing.takeLineFind (s : State) (p : PortId) (tag : Tag) (start : BitVec 32) (criterion : Byte)
    (azimuth : Angle) (mask value : Byte) (invert : Bool) :
    KeepsRing s (s.takeLineFind p tag start criterion azimuth mask value invert) := by
  unfold State.takeLineFind
  split <;> exact .same rfl rfl rfl rfl

theorem KeepsRing.takeEventSetup (s : State) (p : PortId) (tag : Tag) (enable : BitVec 16) (mode first : Byte) :
    KeepsRing s (s.takeEventSetup p tag enable mode first) := by
  unfold State.takeEventSetup
  split
  · exact .same rfl rfl rfl rfl
  · split
    · exact .same rfl rfl rfl rfl
    · split <;> exact .same rfl rfl rfl rfl

theorem KeepsRing.takeEventNext (s : State) (p : PortId) (tag : Tag) : KeepsRing s (s.takeEventNext p tag) :=
  KeepsRing.after (.deliver _ p tag _ _) ⟨rfl, rfl, rfl, rfl⟩

theorem KeepsRing.takeEventFreeze (s : State) (p : PortId) (tag : Tag) (onOff : Byte) :
    KeepsRing s (s.takeEventFreeze p tag onOff) := by
  unfold State.takeEventFreeze
  split <;> exact .same rfl rfl rfl rfl

theorem KeepsRing.takeCountersRead (s : State) (p : PortId) (tag : Tag) (clear : Bool) :
    KeepsRing s (s.takeCountersRead p tag clear) := by
  refine .trans ?_ (.deliver _ p tag _ _)
  split <;> exact .same rfl rfl rfl rfl

/-! ### The camera, transfers and engines -/

theorem KeepsRing.strobeRise (s : State) : KeepsRing s s.strobeRise := by
  unfold State.strobeRise
  split <;> exact .same rfl rfl rfl rfl

theorem KeepsRing.strobeFall (s : State) : KeepsRing s s.strobeFall := by
  unfold State.strobeFall
  split
  · exact .refl s
  · split <;> exact .same rfl rfl rfl rfl

theorem KeepsRing.strobeTimeout (s : State) : KeepsRing s s.strobeTimeout := by
  unfold State.strobeTimeout
  split
  · exact .refl s
  · split <;> exact .same rfl rfl rfl rfl

theorem KeepsRing.tileDeadline (s : State) (id : Nat) : KeepsRing s (s.tileDeadline id) := by
  unfold State.tileDeadline
  split
  · exact .refl s
  · split <;> exact .same rfl rfl rfl rfl

theorem SameLines.completeLoad (s : State) (k : Nat) : SameLines s (s.completeLoad k) := by
  unfold State.completeLoad
  split
  · exact .refl s
  · simp only
    split <;> exact ⟨rfl, rfl, rfl, rfl⟩

theorem SameLines.endLoaderTransfer (s : State) (k work : Nat) : SameLines s (s.endLoaderTransfer k work) := by
  unfold State.endLoaderTransfer
  split
  · exact .refl s
  · split
    · exact .refl s
    · simp only
      split
      · exact SameLines.after (.completeLoad _ k) ⟨rfl, rfl, rfl, rfl⟩
      · exact ⟨rfl, rfl, rfl, rfl⟩

theorem SameLines.endReaderTransfer (s : State) (p : PortId) (work : Nat) : SameLines s (s.endReaderTransfer p work) := by
  unfold State.endReaderTransfer
  split
  · split <;> exact ⟨rfl, rfl, rfl, rfl⟩
  · exact .refl s

theorem LinesFit.endTransferOf (s : State) (o : TransferOwner) (work : Nat) : LinesFit s (s.endTransferOf o work) := by
  cases o with
  | ringWriter => exact .refl s
  | clr => exact .endClrTransfer s work
  | tileLoader k => exact (SameLines.endLoaderTransfer s k work).fit
  | reader p => exact (SameLines.endReaderTransfer s p work).fit

theorem KeepsRing.endTransfer (s : State) (work : Nat) : KeepsRing s (s.endTransfer work) := by
  have idle : KeepsRing s { s with rng := { s.rng with inProgress := none } } := .same rfl rfl rfl rfl
  unfold State.endTransfer
  split
  · exact .refl s
  · apply KeepsRing.settle
    split
    · exact idle.trans (LinesFit.endTransferOf _ _ work).keeps
    · exact idle

theorem KeepsRing.firstPassEnd (s : State) : KeepsRing s s.firstPassEnd := by
  unfold State.firstPassEnd
  split
  · exact .endTransfer s 0
  · exact .refl s

theorem KeepsRing.backfillStepEnd (s : State) : KeepsRing s s.backfillStepEnd := by
  unfold State.backfillStepEnd
  split
  · exact .endTransfer s 0
  · exact .refl s

theorem KeepsRing.tileLoadComplete (s : State) : KeepsRing s s.tileLoadComplete := by
  unfold State.tileLoadComplete
  split
  · exact .refl s
  · exact .endTransfer s _

theorem KeepsRing.lineDeliveryComplete (s : State) (p : PortId) : KeepsRing s (s.lineDeliveryComplete p) := by
  unfold State.lineDeliveryComplete
  split
  · exact .refl s
  · exact (SameLines.completeDelivery s p _ _).keeps.settle

/-! ### Every command, every step -/

theorem KeepsRing.wrap (s : State) : KeepsRing s s.wrap := KeepsRing.after (.wrapActions _) ⟨rfl, rfl, rfl, rfl⟩

/-- A command answers the state its meaning gives. -/
theorem KeepsRing.of_next {s u t : State} (k : KeepsRing s u)
    (h : (Host.Outcome.next u : Host.Outcome State Fault Refusal) = .next t) : KeepsRing s t := by
  cases h
  exact k

theorem exec_keepsRing (c : Instr) (s t : State) (h : exec c s = .next t) : KeepsRing s t := by
  cases c with
  | powerOn straps =>
    have emptied : KeepsRing s (powerOnState (straps.map roleOfStraps) s.pending) := fun _ => .of_empty rfl rfl rfl
    exact emptied.of_next h
  | tbWrap => exact (KeepsRing.wrap s).of_next h
  | quadratureEdge dt axis kind active =>
    exact (KeepsRing.timed (fun e => (SameLines.takeEdge e axis kind active).keeps.settle) s dt).of_next h
  | indexInactive dt axis => exact (KeepsRing.timed (fun e => .setAng e _) s dt).of_next h
  | stallTimerExpiry dt => exact (KeepsRing.timed .stallExpiry s dt).of_next h
  | rangingLinkUp dt => exact (KeepsRing.timed (fun e => (SameLines.rangingUp e).keeps) s dt).of_next h
  | rangingLinkLoss dt => exact (KeepsRing.timed .rangingLoss s dt).of_next h
  | emit dt id time =>
    exact (KeepsRing.timed (.onRecord (fun e => (SameLines.takeEmit e id time).keeps.settle)) s dt).of_next h
  | echo dt reference delay amplitude width saturated =>
    exact (KeepsRing.timed (.onRecord (fun e => (SameLines.takeEcho e ⟨reference, delay, amplitude, width, saturated⟩).keeps))
      s dt).of_next h
  | faultRecord dt code =>
    exact (KeepsRing.timed (.onRecord (fun e => (SameLines.takeFaultRecord e code).keeps.settle)) s dt).of_next h
  | armedTimerExpiry dt => exact (KeepsRing.timed .armedTimer s dt).of_next h
  | drainTimerExpiry dt => exact (KeepsRing.timed .drainTimer s dt).of_next h
  | abandonmentReport dt => exact (KeepsRing.timed (fun e => (SameLines.takeAbandonment e).keeps) s dt).of_next h
  | dramTransferEnd dt work => exact (KeepsRing.timed (.endTransfer · work) s dt).of_next h
  | firstPassEnd dt => exact (KeepsRing.timed .firstPassEnd s dt).of_next h
  | backfillStepEnd dt => exact (KeepsRing.timed .backfillStepEnd s dt).of_next h
  | strobeRise dt => exact (KeepsRing.timed .strobeRise s dt).of_next h
  | strobeFall dt => exact (KeepsRing.timed .strobeFall s dt).of_next h
  | strobeTimeoutExpiry dt => exact (KeepsRing.timed .strobeTimeout s dt).of_next h
  | tileDeadlineExpiry dt exposure =>
    exact (KeepsRing.timed (fun e => (KeepsRing.tileDeadline e exposure.toNat).settle) s dt).of_next h
  | tileLoadComplete dt => exact (KeepsRing.timed .tileLoadComplete s dt).of_next h
  | lineDeliveryComplete dt p => exact (KeepsRing.timed (.lineDeliveryComplete · p) s dt).of_next h
  | clientLinkUp dt p => exact (KeepsRing.timed (.clientUp · p) s dt).of_next h
  | clientLinkLoss dt p => exact (KeepsRing.timed (.clientLoss · p) s dt).of_next h
  | badFrame dt p => exact (KeepsRing.timed (.badFrame · p) s dt).of_next h
  | dataOut dt p tag payload => exact (KeepsRing.timed (.dataFrame · p tag payload) s dt).of_next h
  | frameTransmitted dt p => exact (KeepsRing.timed (.frameSent · p) s dt).of_next h
  | unknownCommand dt p tag code =>
    exact (KeepsRing.timed (.client (.refuse · p tag .arg 0 _) p tag everyRole) s dt).of_next h
  | identify dt p tag => exact (KeepsRing.timed (.client (.deliver · p tag _ _) p tag everyRole) s dt).of_next h
  | statusRead dt p tag =>
    exact (KeepsRing.timed (.client (fun e => .deliver e p tag _ _) p tag everyRole) s dt).of_next h
  | countersRead dt p tag clear =>
    exact (KeepsRing.timed (.client (.takeCountersRead · p tag clear) p tag everyRole) s dt).of_next h
  | senseRead dt p tag =>
    exact (KeepsRing.timed (.clientKeepSense (fun e => .deliver e p tag _ _) p tag) s dt).of_next h
  | tagAbort dt p tag target =>
    exact (KeepsRing.timed (.clientSkipTag (.takeTagAbort · p tag target) p) s dt).of_next h
  | portReset dt p tag => exact (KeepsRing.timed (.clientSkipTag (.resetPort · p tag) p) s dt).of_next h
  | eventSetup dt p tag enable mode first =>
    exact (KeepsRing.timed (.client (.takeEventSetup · p tag enable mode first) p tag everyRole) s dt).of_next h
  | eventNext dt p tag => exact (KeepsRing.timed (.client (.takeEventNext · p tag) p tag everyRole) s dt).of_next h
  | eventFreeze dt p tag onOff =>
    exact (KeepsRing.timed (.client (.takeEventFreeze · p tag onOff) p tag everyRole) s dt).of_next h
  | scanSetup dt p tag =>
    exact (KeepsRing.timed (.client (.gatherInIdle · p tag _ _) p tag onlyControl) s dt).of_next h
  | scanStart dt p tag => exact (KeepsRing.timed (.client (.takeScanStart · p tag) p tag onlyControl) s dt).of_next h
  | scanStop dt p tag => exact (KeepsRing.timed (.client (.takeScanStop · p tag) p tag onlyControl) s dt).of_next h
  | faultClear dt p tag => exact (KeepsRing.timed (.client (.takeFaultClear · p tag) p tag onlyControl) s dt).of_next h
  | restart dt p tag => exact (KeepsRing.timed (.client (.takeRestart · p tag) p tag onlyControl) s dt).of_next h
  | mirrorCalibrate dt p tag =>
    exact (KeepsRing.timed (.client (.gatherInIdle · p tag _ _) p tag onlyControl) s dt).of_next h
  | maskLoad dt p tag empty count =>
    exact (KeepsRing.timed (.client (.takeMaskLoad · p tag empty count) p tag onlyControl) s dt).of_next h
  | cameraSetup dt p tag =>
    exact (KeepsRing.timed (.client (.gatherInIdle · p tag _ _) p tag imagingOrControl) s dt).of_next h
  | stationLoad dt p tag empty count =>
    exact (KeepsRing.timed (.client (.takeStationLoad · p tag empty count) p tag onlyImaging) s dt).of_next h
  | exposuresRead dt p tag after count =>
    exact (KeepsRing.timed (.client (fun e => .countTest (fun e => .deliver e p tag _ _) e p tag _ _ _) p tag everyRole)
      s dt).of_next h
  | exposureDrop dt p tag exposure =>
    exact (KeepsRing.timed (.client (.takeExposureDrop · p tag exposure) p tag onlyImaging) s dt).of_next h
  | tileLoad dt p tag exposure priority w hh =>
    exact (KeepsRing.timed (.client (.takeTileLoad · p tag exposure priority w hh) p tag onlyImaging) s dt).of_next h
  | tileRetire dt p tag slot exposure =>
    exact (KeepsRing.timed (.client (.takeTileRetire · p tag slot exposure) p tag onlyImaging) s dt).of_next h
  | tilesList dt p tag =>
    exact (KeepsRing.timed (.client (fun e => .deliver e p tag _ _) p tag everyRole) s dt).of_next h
  | streamOpen dt p tag mode start startLine =>
    exact (KeepsRing.timed (.client (.takeStreamOpen · p tag mode start startLine) p tag everyRole) s dt).of_next h
  | streamClose dt p tag => exact (KeepsRing.timed (.client (.takeStreamClose · p tag) p tag everyRole) s dt).of_next h
  | linesRead dt p tag count =>
    exact (KeepsRing.timed (.client (.takeLinesRead · p tag count) p tag everyRole) s dt).of_next h
  | linesRelease dt p tag n =>
    exact (KeepsRing.timed (.client (.takeLinesRelease · p tag n) p tag everyRole) s dt).of_next h
  | linesCheck dt p tag => exact (KeepsRing.timed (.client (.takeLinesCheck · p tag) p tag everyRole) s dt).of_next h
  | lineFind dt p tag startLine criterion azimuth mask value invert =>
    exact (KeepsRing.timed (.client (.takeLineFind · p tag startLine criterion azimuth mask value invert) p tag everyRole)
      s dt).of_next h

theorem step_keepsRing (s t : State) (h : step s = .next t) : KeepsRing s t := by
  unfold step at h
  split at h
  · exact (KeepsRing.elapse s 1).of_next h
  · rename_i c rest _
    have taken : KeepsRing s { s with pending := rest } := .same rfl rfl rfl rfl
    exact taken.trans (exec_keepsRing c _ t h)

/-- Settles O54: only the ring writer's grant and the end of a first pass move lines, and a new ring size empties the ring; what
the writer adds has been admitted (`KeepsRing.admitted`) or moves from the open line (`KeepsRing.closeNotice`). -/
theorem ringInvariantKept : Obligations.RingInvariantKept := fun s t inv h => step_keepsRing s t h inv

end Sys2Proof.Machine

namespace Sys2Proof.Machine

/-! ### The arbiter's mode (R96) -/

theorem arbiterModeFollows : Statement.ArbiterModeFollows := by
  intro s t fifo mode ht high low between
  have follows : mode = modeAfter (fifoPoints fifo) s.rng.mode := by
    unfold modeAfter
    split
    · rename_i above
      exact high above
    · rename_i above
      split
      · rename_i below
        exact low below
      · rename_i below
        exact between (Nat.le_of_not_lt below) (Nat.le_of_not_lt above)
  rw [ht, follows]
  rfl

/-! ### Stalls and requests (R90, R94) -/

theorem Rng.discards_eq_none_iff (r : Rng) (x : FifoItem) :
    r.discards x = none ↔ ∀ d, r.discarding = some d → d.number ≠ x.line := by
  unfold Rng.discards
  cases r.discarding <;> simp

theorem State.writerStalled_iff (s : State) : s.writerStalled = true ↔
    32 ≤ s.rng.closed.length ∧ ∃ n h rest, s.lnb.fifo = .closeNotice n h :: rest ∧
      ∀ d, s.rng.discarding = some d → d.number ≠ n := by
  unfold State.writerStalled
  cases fifo : s.lnb.fifo with
  | nil => simp
  | cons x rest =>
    cases x with
    | openNotice n => simp
    | point n p => simp
    | closeNotice n h =>
      have kept := s.rng.discards_eq_none_iff (.closeNotice n h)
      simp only [FifoItem.line] at kept
      have full : decide (closedCapacity ≤ s.rng.closed.length) = true ↔ 32 ≤ s.rng.closed.length := decide_eq_true_iff
      simp [full, kept, and_comm]

theorem State.writerRequests_iff (s : State) :
    s.writerRequests = true ↔ s.lnb.fifo ≠ [] ∧ s.writerStalled = false := by
  simp [State.writerRequests]

theorem PassKind.isStep_eq_false_iff (k : PassKind) : k.isStep = false ↔ k = .firstPass := by
  cases k <;> simp [PassKind.isStep]

theorem Quad.mem_toList {α : Type} (q : Quad α) (x : α) : x ∈ q.toList ↔ ∃ p, q.get p = x := by
  simp only [Quad.toList, List.mem_cons, List.not_mem_nil, or_false]
  constructor
  · rintro (rfl | rfl | rfl | rfl)
    · exact ⟨0, rfl⟩
    · exact ⟨1, rfl⟩
    · exact ⟨2, rfl⟩
    · exact ⟨3, rfl⟩
  · rintro ⟨p, rfl⟩
    match p with
    | 0 => exact .inl rfl
    | 1 => exact .inr (.inl rfl)
    | 2 => exact .inr (.inr (.inl rfl))
    | 3 => exact .inr (.inr (.inr rfl))

/-- A line is held while some reader delivers it and does not wait for a step (R150). -/
theorem State.lineHeld_iff (s : State) (n : Nat) : s.lineHeld n = true ↔
    ∃ p r sent, (s.stream p).read = some r ∧ r.state = .delivering n true sent := by
  unfold State.lineHeld
  rw [List.any_eq_true]
  constructor
  · rintro ⟨st, mem, holds⟩
    obtain ⟨p, rfl⟩ := (Quad.mem_toList _ _).1 mem
    split at holds
    · rename_i tag left line sent read
      obtain rfl : line = n := of_decide_eq_true holds
      exact ⟨p, _, sent, read, rfl⟩
    · cases holds
  · rintro ⟨p, ⟨tag, left, _⟩, sent, read, rfl⟩
    refine ⟨s.stream p, (Quad.mem_toList _ _).2 ⟨p, rfl⟩, ?_⟩
    rw [read]
    exact decide_eq_true rfl

theorem State.requests_clr_iff (s : State) : s.requests .clr = true ↔ ∃ x, s.clr.pass = some x ∧
    (x.kind = .firstPass ∨ ∀ p r sent, (s.stream p).read = some r → r.state ≠ .delivering x.line true sent) := by
  show s.clrRequests = true ↔ _
  unfold State.clrRequests
  cases pass : s.clr.pass with
  | none => simp
  | some x =>
    have held := s.lineHeld_iff x.line
    have first := x.kind.isStep_eq_false_iff
    have free : (∀ p r sent, (s.stream p).read = some r → r.state ≠ .delivering x.line true sent) ↔
        s.lineHeld x.line = false := by
      rw [← Bool.not_eq_true, held]
      push Not
      rfl
    simp only [Bool.not_eq_true', Bool.and_eq_false_iff, first, Option.some.injEq, exists_eq_left', free]

theorem Port.paced_iff (q : Port) (tag : Tag) :
    q.paced tag = true ↔ ∀ f ∈ q.outgoing, f.tag = tag → ∀ d, f.body ≠ .dataIn d := by
  unfold Port.paced
  rw [List.all_eq_true]
  refine forall₂_congr fun f _ => ?_
  cases f.body with
  | reply st cls code => simp
  | dataIn d => simp

theorem State.requests_reader_iff (s : State) (p : PortId) : s.requests (.reader p) = true ↔
    ∃ r n sent l, (s.stream p).read = some r ∧ r.state = .delivering n true sent ∧ s.rng.lookup n = some l ∧
      sent < 48 + (l.points.map (fun x => 12 + 8 * x.echoes.length)).sum ∧
      ∀ f ∈ (s.port p).outgoing, f.tag = r.tag → ∀ d, f.body ≠ .dataIn d := by
  show s.readerRequests p = true ↔ _
  unfold State.readerRequests
  constructor
  · intro requests
    split at requests
    · rename_i tag left n sent read
      split at requests
      · cases requests
      · rename_i l found
        obtain ⟨more, paced⟩ := Bool.and_eq_true_iff.1 requests
        exact ⟨_, n, sent, l, read, rfl, found, of_decide_eq_true more, (Port.paced_iff _ _).1 paced⟩
    · cases requests
  · rintro ⟨⟨tag, left, _⟩, n, sent, l, read, rfl, found, more, paced⟩
    simp only [read, found]
    exact Bool.and_eq_true_iff.2 ⟨decide_eq_true more, (Port.paced_iff _ _).2 paced⟩

theorem dramRequests : Statement.DramRequests := by
  intro s stalled hs
  obtain rfl : stalled = s.writerStalled := Bool.eq_iff_iff.2 (hs.trans s.writerStalled_iff.symm)
  refine ⟨s.writerRequests_iff, fun stall once => ?_, fun free => ?_, s.requests_clr_iff, ?_, s.requests_reader_iff⟩
  · rw [State.countStall, stall, once]
    rfl
  · rw [State.countStall, if_neg]
    rcases free with free | counted
    · simp [free]
    · simp [counted]
  · show (!s.clr.loader.isEmpty) = true ↔ _
    simp

/-! ### Grants (R95) -/

theorem RoundRobin.mem_cycleAfter (last x : RoundRobin) : x ∈ cycleAfter last := by
  have all : x ∈ ([.clr, .tileLoader, .reader 0, .reader 1, .reader 2, .reader 3] : List RoundRobin) := by
    cases x with
    | clr => simp
    | tileLoader => simp
    | reader p => revert p; decide
  unfold cycleAfter
  simp only [List.mem_append]
  rw [or_comm, ← List.mem_append, List.take_append_drop]
  exact all

theorem State.winner_eq_none_iff (s : State) : s.winner = none ↔ ∀ x, s.requests x = false := by
  unfold State.winner
  rw [List.find?_eq_none]
  simp [RoundRobin.mem_cycleAfter]

/-- The cycle starts after the last one granted and ends with it. -/
theorem cycleAfter_eq {last : RoundRobin} {before after : List RoundRobin}
    (cycle : [.clr, .tileLoader, .reader 0, .reader 1, .reader 2, .reader 3] = before ++ last :: after) :
    cycleAfter last = after ++ before ++ [last] := by
  have single : (before ++ last :: after).Nodup := by
    rw [← cycle]
    decide
  have place : (before ++ last :: after).idxOf last = before.length := by
    have absent : last ∉ before := fun mem => by
      rw [List.nodup_append] at single
      exact single.2.2 last mem last List.mem_cons_self rfl
    rw [List.idxOf_append_of_notMem absent, List.idxOf_cons_self, Nat.add_zero]
  unfold cycleAfter
  simp only [cycle, place]
  have cut : before ++ last :: after = (before ++ [last]) ++ after := by simp
  have length : before.length + 1 = (before ++ [last]).length := by simp
  rw [cut, length, List.drop_left, List.take_left, List.append_assoc]

/-- The first requester in the cycle is the winner. -/
theorem State.winner_eq_some {s : State} {x : RoundRobin} {before after : List RoundRobin}
    (cycle : cycleAfter s.rng.lastRR = before ++ x :: after) (requests : s.requests x = true)
    (first : ∀ y ∈ before, s.requests y = false) : s.winner = some x := by
  unfold State.winner
  rw [cycle, List.find?_append, List.find?_eq_none.2 (fun y mem => by simp [first y mem]), List.find?_cons_of_pos requests]
  rfl

theorem State.grant_writer {s : State} (idle : s.rng.inProgress = none) (requests : s.writerRequests = true)
    (first : s.writerFirst = true) : s.grant = s.grantWriter s.winner.isSome := by
  rw [State.grant_idle idle, requests, first]
  rfl

theorem State.grant_other {s : State} (idle : s.rng.inProgress = none)
    (passed : s.writerRequests = false ∨ s.writerFirst = false) : s.grant = s.winner.elim s s.grantRR := by
  rw [State.grant_idle idle, if_neg]
  rcases passed with passed | passed
  · simp [passed]
  · simp [passed]

theorem dramGrants : Statement.DramGrants := by
  intro s
  refine ⟨fun y busy => State.grant_busy busy, fun idle none noOther => ?_, fun idle requests mode => ?_,
    fun idle requests mode noOther => ?_, fun x idle requests mode other short => ?_,
    fun x first last before after idle passed requests cycle place unasked => ?_⟩
  · rw [State.grant_other idle (.inl none), s.winner_eq_none_iff.2 noOther]
    rfl
  · rw [State.grant_writer idle requests (by rw [State.writerFirst, mode]), State.grantWriter, mode]
    rfl
  · have alone := s.winner_eq_none_iff.2 noOther
    rw [State.grant_writer idle requests (by simp [State.writerFirst, mode, alone]), State.grantWriter, mode, alone]
    rfl
  · have waiting : s.winner.isSome = true := by
      rw [Option.isSome_iff_ne_none, Ne, s.winner_eq_none_iff]
      intro noOther
      rw [noOther x] at other
      cases other
    rw [State.grant_writer idle requests (by simp [State.writerFirst, mode, short]), State.grantWriter, mode, waiting]
    rfl
  · have wins : s.winner = some x := State.winner_eq_some ((cycleAfter_eq cycle).trans place) requests unasked
    have yields : s.writerRequests = false ∨ s.writerFirst = false :=
      passed.imp_right fun ⟨mode, spent⟩ => by simp [State.writerFirst, mode, wins, spent]
    rw [State.grant_other idle yields, wins]
    rfl

theorem endOfAStep : Statement.EndOfAStep := by
  intro s follow hf
  rw [hf, hf]
  rfl

/-- Settles O34: the mode, the requests and the grants case by case; a step ends in the order `State.settle` gives. -/
theorem arbiterGrants : Obligations.ArbiterGrants := ⟨arbiterModeFollows, dramRequests, dramGrants, endOfAStep⟩

end Sys2Proof.Machine

namespace Sys2Proof.Machine

/-! ### The end of a transfer, by what it served (R94, R97) -/

/-- The DRAM is idle. -/
def State.dramFreed (s : State) : State := { s with rng := { s.rng with inProgress := none } }

theorem State.endTransfer_none {s : State} (idle : s.rng.inProgress = none) (work : Nat) : s.endTransfer work = s := by
  rw [State.endTransfer, idle]

theorem State.endTransfer_wanted {s : State} {o : TransferOwner} (progress : s.rng.inProgress = some ⟨o, true⟩) (work : Nat) :
    s.endTransfer work = (s.dramFreed.endTransferOf o work).settle := by
  rw [State.endTransfer, progress]
  rfl

theorem State.endTransfer_over {s : State} {t : Transfer} (progress : s.rng.inProgress = some t)
    (ended : t.wanted = false ∨ t.owner = .ringWriter) (work : Nat) : s.endTransfer work = s.dramFreed.settle := by
  obtain ⟨owner, wanted⟩ := t
  rw [State.endTransfer, progress]
  rcases ended with rfl | rfl
  · rfl
  · cases wanted <;> rfl

theorem exec_dramTransferEnd {dt : Nat} {s e : State} (he : e = s.elapse dt) (work : Nat) :
    exec (.dramTransferEnd dt work) s = .next (e.endTransfer work) := by
  rw [he]
  rfl

theorem transferWithoutWork : Statement.TransferWithoutWork := by
  intro dt work s e he
  refine ⟨fun x progress ended => ?_, fun idle => ?_⟩
  · rw [exec_dramTransferEnd he, State.endTransfer_over progress ended]
    rfl
  · rw [exec_dramTransferEnd he, State.endTransfer_none idle]

/-! ### CLR's and the readers' transfers leave the tile area -/

theorem Kept.dramFreed (s : State) : Kept s s.dramFreed := Kept.of_own rfl rfl rfl rfl rfl rfl rfl rfl rfl rfl

theorem Kept.colourNext (s : State) : Kept s s.colourNext := by
  unfold State.colourNext
  split
  · exact .refl s
  · split
    · exact .refl s
    · split
      · simp only
        refine Kept.of_own rfl rfl rfl rfl rfl rfl rfl ?_ rfl rfl
        unfold Clr.pin
        split <;> rfl
      · exact Kept.of_own rfl rfl rfl rfl rfl rfl rfl rfl rfl rfl

theorem Kept.colourPoints (n : Nat) (s : State) : Kept s (State.colourPoints n s) := by
  induction n generalizing s with
  | zero => exact .refl s
  | succ n ih => exact (Kept.colourNext s).trans (ih _)

theorem Kept.endFirstPass (s : State) (x : Pass) : Kept s (s.endFirstPass x) := by
  refine Kept.trans ?_ ((Kept.releasePins _).trans (Kept.commitReady _))
  exact Kept.of_own rfl rfl rfl rfl rfl rfl rfl rfl rfl rfl

theorem Kept.endStep (s : State) (x : Pass) : Kept s (s.endStep x) := by
  unfold State.endStep
  simp only
  split
  · refine Kept.trans ?_ (Kept.releasePins _)
    exact Kept.of_own rfl rfl rfl rfl rfl rfl rfl rfl rfl rfl
  · refine Kept.trans ?_ ((Kept.releasePins _).trans ((Kept.changeNotice _ x.line).trans (Kept.raiseReady s _)))
    exact Kept.of_own rfl rfl rfl rfl rfl rfl rfl rfl rfl rfl

theorem Kept.endClrTransfer (s : State) (work : Nat) : Kept s (s.endClrTransfer work) := by
  unfold State.endClrTransfer
  split
  · exact .refl s
  · split
    · unfold State.endPass
      split
      · exact .endFirstPass s _
      · exact .endStep s _
      · exact .endStep s _
    · exact .colourPoints _ s

theorem Kept.endReaderTransfer (s : State) (p : PortId) (work : Nat) : Kept s (s.endReaderTransfer p work) := by
  unfold State.endReaderTransfer
  split
  · split
    · exact .refl s
    · exact (Kept.modStr s p _).trans (Kept.hand _ p _)
  · exact .refl s

/-- Only the tile loader writes to the tile area. -/
theorem Kept.endTransferOf {o : TransferOwner} (other : ∀ k, o ≠ .tileLoader k) (s : State) (work : Nat) :
    Kept s (s.endTransferOf o work) := by
  cases o with
  | ringWriter => exact .refl s
  | clr => exact .endClrTransfer s work
  | tileLoader k => exact absurd rfl (other k)
  | reader p => exact .endReaderTransfer s p work

theorem otherTransfersLeaveTileArea : Statement.OtherTransfersLeaveTileArea := by
  rintro dt work ⟨owner, wanted⟩ s e he progress other
  have kept : Kept e (e.endTransfer work) := by
    cases wanted with
    | false =>
      rw [State.endTransfer_over progress (.inl rfl)]
      exact (Kept.dramFreed e).trans (Kept.settle _)
    | true =>
      rw [State.endTransfer_wanted progress]
      exact ((Kept.dramFreed e).trans (Kept.endTransferOf other _ work)).trans (Kept.settle _)
  exact ⟨_, exec_dramTransferEnd he work, kept.tileArea, kept.tb, kept.ang, kept.eca, kept.scn, kept.exs, kept.pending⟩

/-! ### A reader's transfer (R150) -/

/-- The bytes a transfer of `work` bytes reads of a line of which `sent` have been sent. -/
def RingLine.payload (l : RingLine) (sent work : Nat) : List Byte := (l.bytes.drop sent).take (max 1 (min work 1024))

theorem State.endReaderTransfer_eq {s : State} {p : PortId} {r : LinesRead} {n sent : Nat} {l : RingLine}
    (read : (s.stream p).read = some r) (delivers : r.state = .delivering n true sent) (found : s.rng.lookup n = some l)
    (work : Nat) : s.endReaderTransfer p work =
      (s.setRead p (some ⟨r.tag, r.remaining, .delivering n true (sent + (l.payload sent work).length)⟩)).modPort p
        (Port.hand ⟨r.tag, .dataIn (l.payload sent work), false⟩) := by
  obtain ⟨tag, left, _⟩ := r
  obtain rfl := delivers
  simp only [State.endReaderTransfer, read, found]
  rfl

theorem readerTransferEnds : Statement.ReaderTransferEnds := by
  intro dt work p r n sent l s e t he up progress read delivers found ht
  have ends : e.endTransfer work = t.settle := by
    rw [State.endTransfer_wanted progress]
    show (e.dramFreed.endReaderTransfer p work).settle = _
    rw [State.endReaderTransfer_eq (s := e.dramFreed) read delivers found, ht]
    refine congrArg State.settle ?_
    rw [← Port.hand_up ⟨r.tag, .dataIn ((l.bytes.drop sent).take (max 1 (min work 1024))), false⟩ (e.port p) up]
    rfl
  have kept := Kept.settle t
  obtain ⟨f, mem, tag, body⟩ := kept.frames p ⟨r.tag, .dataIn ((l.bytes.drop sent).take (max 1 (min work 1024))), false⟩ (by
    rw [ht]
    simp [State.port, State.withPort])
  refine ⟨_, rfl, (exec_dramTransferEnd he work).trans (congrArg _ ends), ⟨f, mem, tag, body⟩, ?_⟩
  rw [kept.tileArea, kept.tb, kept.ang, kept.eca, kept.scn, kept.exs, kept.pending, ht]
  exact ⟨rfl, rfl, rfl, rfl, rfl, rfl, rfl⟩

/-! ### The tile loader's transfer (R124) -/

theorem Clr.queueBackfill_tileArea (c : Clr) (e : Nat) : (c.queueBackfill e).tileArea = c.tileArea := by
  unfold Clr.queueBackfill
  split <;> rfl

theorem SameScan.trans {s t u : State} (h : SameScan s t) (k : SameScan t u) : SameScan s u :=
  ⟨k.tb.trans h.tb, k.ang.trans h.ang, k.eca.trans h.eca, k.scn.trans h.scn, k.pending.trans h.pending⟩

/-- What the tile loader leaves alone: the timebase, ANG, ECA, SCN and the commands waiting. -/
theorem State.completeLoad_sameScan (s : State) (k : Nat) : SameScan s (s.completeLoad k) := by
  unfold State.completeLoad
  split
  · exact ⟨rfl, rfl, rfl, rfl, rfl⟩
  · simp only
    split <;> exact ⟨rfl, rfl, rfl, rfl, rfl⟩

theorem State.completeLoad_tileArea (s : State) (k : Nat) : (s.completeLoad k).clr.tileArea = s.clr.tileArea := by
  unfold State.completeLoad
  split
  · rfl
  · simp only
    split <;> exact Clr.queueBackfill_tileArea _ _

/-- The bytes one transfer of the tile loader writes. -/
theorem State.endLoaderTransfer_spec {s : State} {k : Nat} {chunk : LoadChunk} {rest : List LoadChunk} {t : TileSlot}
    (loader : s.clr.loader = chunk :: rest) (slot : s.clr.slot k = some t) (work : Nat) :
    SameScan s (s.endLoaderTransfer k work) ∧
    (s.endLoaderTransfer k work).clr.tileArea = Memory.writeList s.clr.tileArea (k * slotBytes + t.written)
      (chunk.bytes.take (max 1 (min (min work 1024) chunk.bytes.length))) := by
  unfold State.endLoaderTransfer
  simp only [loader, slot]
  split
  · refine ⟨SameScan.trans ?_ (State.completeLoad_sameScan _ k), State.completeLoad_tileArea _ k⟩
    exact ⟨rfl, rfl, rfl, rfl, rfl⟩
  · exact ⟨⟨rfl, rfl, rfl, rfl, rfl⟩, rfl⟩

theorem tileLoaderTransferEnds : Statement.TileLoaderTransferEnds := by
  intro dt work slot chunk rest t k s e he progress loader found wf hk fits
  obtain ⟨scan, area⟩ := State.endLoaderTransfer_spec (s := e.dramFreed) loader found work
  rw [← hk] at area
  have kept := Kept.settle (e.dramFreed.endLoaderTransfer slot work)
  have length : (chunk.bytes.take k).length = k := List.length_take_of_le fits
  refine ⟨_, (exec_dramTransferEnd he work).trans (congrArg _ (State.endTransfer_wanted progress work)), fun i written => ?_,
    fun a outside => ?_, kept.tb.trans scan.tb, kept.ang.trans scan.ang, kept.eca.trans scan.eca, kept.scn.trans scan.scn,
    kept.pending.trans scan.pending⟩
  · have inside : i < (chunk.bytes.take k).length := by omega
    show Memory.read (e.dramFreed.endLoaderTransfer slot work).settle.clr.tileArea _ = _
    rw [kept.tileArea, area]
    refine (Memory.read_writeList_inside _ _ _ i wf inside).trans ?_
    rw [List.getElem_take, List.getD_eq_getElem]
  · show Memory.read (e.dramFreed.endLoaderTransfer slot work).settle.clr.tileArea _ = _
    rw [kept.tileArea, area]
    exact Memory.read_writeList_outside _ _ _ _ (by rw [length]; exact outside)

/-- Settles O35: a transfer that ends frees the DRAM and, where its work is still wanted, serves its owner; only the tile
loader's writes to the tile area (`State.endLoaderTransfer_spec`). -/
theorem transfersEnd : Obligations.TransfersEnd :=
  ⟨tileLoaderTransferEnds, otherTransfersLeaveTileArea, readerTransferEnds, transferWithoutWork⟩

end Sys2Proof.Machine

namespace Sys2Proof.Machine

/-! ### The ring writer takes an item (R83) -/

/-- The oldest item is out of the FIFO, before it is dealt with. -/
def State.itemTaken (s : State) (rest : List FifoItem) : State :=
  { s.withFifo rest with rng := { (s.withFifo rest).rng with stallCounted := false } }

/-- An item that is not of the discarding line. -/
def State.keepItem (s : State) : FifoItem → State
  | .openNotice n => s.openItem n
  | .point n p => s.pointItem n p
  | .closeNotice _ h => s.closeItem h

theorem State.writeItem_discards {s : State} {x : FifoItem} {rest : List FifoItem} {d : Discarding}
    (fifo : s.lnb.fifo = x :: rest) (discards : s.rng.discards x = some d) :
    s.writeItem = (s.itemTaken rest).discardItem d x := by
  have taken : (s.itemTaken rest).rng.discards x = some d := discards
  unfold State.itemTaken at taken
  unfold State.writeItem State.itemTaken
  simp only [fifo, taken]

theorem State.writeItem_keeps {s : State} {x : FifoItem} {rest : List FifoItem}
    (fifo : s.lnb.fifo = x :: rest) (keeps : s.rng.discards x = none) : s.writeItem = (s.itemTaken rest).keepItem x := by
  have taken : (s.itemTaken rest).rng.discards x = none := keeps
  unfold State.itemTaken at taken
  unfold State.writeItem State.itemTaken
  simp only [fifo, taken]
  rfl

theorem Rng.discards_of_number {r : Rng} {d : Discarding} {x : FifoItem} (discarding : r.discarding = some d)
    (number : d.number = x.line) : r.discards x = some d := by
  rw [Rng.discards, discarding]
  exact if_pos number

theorem discardedItems : Statement.DiscardedItems := by
  intro s u x rest d fifo hu discarding
  have written (number : d.number = x.line) : s.writeItem = u.discardItem d x := by
    rw [hu]
    exact State.writeItem_discards fifo (Rng.discards_of_number discarding number)
  refine ⟨fun hx => ?_, fun h hx => ?_, fun p hx cause => ?_, fun p hx cause => ?_⟩
  all_goals
    subst hx
    rw [written rfl, State.discardItem]
  · rw [cause]
  · rw [cause]

/-! ### Open notices, points and close notices (R83, R88, R90) -/

theorem State.openItem_eq (s : State) (n : Nat) : s.openItem n =
    if (({ s with rng := { s.rng with discarding := none } } : State).admitBytes 48).2 then
      { (({ s with rng := { s.rng with discarding := none } } : State).admitBytes 48).1 with
        rng := { (({ s with rng := { s.rng with discarding := none } } : State).admitBytes 48).1.rng with
          openLine := some ⟨n, []⟩ } }
    else (({ s with rng := { s.rng with discarding := none } } : State).admitBytes 48).1.abandon n 0 := rfl

theorem State.pointItem_eq {s : State} {o : RingOpen} (line : s.rng.openLine = some o) (n : Nat) (p : Point) :
    s.pointItem n p =
      if (s.admitBytes p.size).2 then
        { (s.admitBytes p.size).1 with rng := { (s.admitBytes p.size).1.rng with
          openLine := some { o with points := o.points ++ [p.asWritten] } } }
      else (s.admitBytes p.size).1.abandon n (o.points.length + 1) := by
  unfold State.pointItem
  rw [line]

theorem Clr.takeLine_room {c : Clr} (room : c.colourQueue.length < 16) (n : Nat) :
    c.takeLine n = ({ c with colourQueue := c.colourQueue ++ [n] }, true) := if_pos room

theorem Clr.takeLine_full {c : Clr} (full : 16 ≤ c.colourQueue.length) (n : Nat) : c.takeLine n = ({ c with
    counters := { c.counters with colourSkippedLines := bump c.counters.colourSkippedLines 1 } }, false) :=
  if_neg (Nat.not_lt.2 full)

theorem State.closeItem_eq {s : State} {o : RingOpen} (line : s.rng.openLine = some o) (h : LineHeader) :
    s.closeItem h = s.closeNotice h o := by
  rw [State.closeItem, line]

theorem writtenItems : Statement.WrittenItems := by
  intro s u w x rest fifo hu other
  have written : s.writeItem = u.keepItem x := by
    rw [hu]
    exact State.writeItem_keeps fifo ((Rng.discards_eq_none_iff _ _).2 other)
  refine ⟨fun n hx => ?_, fun n p o hx line => ?_, fun n h o hx line => ?_⟩
  all_goals
    subst hx
    rw [written]
  · refine ⟨fun admitted => ?_, fun refused => ?_⟩
    · show u.openItem n = _
      rw [State.openItem_eq, admitted]
      rfl
    · show u.openItem n = _
      rw [State.openItem_eq, refused]
      rfl
  · have ringLine : u.rng.openLine = some o := by
      rw [hu]
      exact line
    refine ⟨fun admitted => ?_, fun refused => ?_⟩
    · show u.pointItem n p = _
      have admitted : u.admitBytes p.size = (w, true) := admitted
      rw [State.pointItem_eq ringLine, admitted]
      rfl
    · show u.pointItem n p = _
      have refused : u.admitBytes p.size = (w, false) := refused
      rw [State.pointItem_eq ringLine, refused]
      rfl
  · have ringLine : u.rng.openLine = some o := by
      rw [hu]
      exact line
    refine ⟨fun room => ?_, fun full => ?_⟩
    · show u.closeItem h = _
      rw [State.closeItem_eq ringLine, State.closeNotice, Clr.takeLine_room room]
      rfl
    · show u.closeItem h = _
      rw [State.closeItem_eq ringLine, State.closeNotice, Clr.takeLine_full full]
      rfl

/-! ### READY where a line has become deliverable (R154) -/

theorem State.raiseOn_if (s : State) (p : PortId) (e : EventPos) (b : Bool) : (if b then s.raiseOn p e else s) =
    { s with atn := s.atn.modify p (fun a => if b then a.raise e (s.port p).link else a) } := by
  cases b with
  | true => rfl
  | false =>
    have same : s.atn.modify p (fun a => a) = s.atn := Quad.set_get _ _
    show s = { s with atn := s.atn.modify p (fun a => a) }
    rw [same]

theorem State.raiseReady_eq (before s : State) : State.raiseReady before s = { s with
    atn := s.atn.mapIdx (fun p a =>
      if (before.deliverable p).isNone && (s.deliverable p).isSome then a.raise evReady (s.port p).link else a) } := by
  unfold State.raiseReady
  simp only [State.raiseOn_if, allPorts, List.foldl]
  rfl

theorem State.atn_raiseReady (before s : State) (p : PortId) : (State.raiseReady before s).atn.get p =
    if before.deliverable p = none ∧ s.deliverable p ≠ none then (s.atn.get p).raise evReady (s.port p).link
    else s.atn.get p := by
  rw [State.raiseReady_eq]
  simp only [Quad.get_mapIdx, Bool.and_eq_true, Option.isNone_iff_eq_none, Option.isSome_iff_ne_none, ne_eq]

/-! ### Commit (R89, R91, R92) -/

theorem State.commitReady_nil {s : State} (none : s.rng.closed = []) : s.commitReady = s := by
  rw [State.commitReady, none]
  rfl

theorem State.commitReady_waits {s : State} {x : ClosedLine} {rest : List ClosedLine} (head : s.rng.closed = x :: rest)
    (colouring : x.state = .colouring) : s.commitReady = s := by
  rw [State.commitReady, head, List.length_cons, State.commitReadyIn]
  simp only [head, colouring]
  rfl

/-- The head of the closed-line list commits, and then the lines behind it that are ready. -/
theorem State.commitReady_head {s : State} {x : ClosedLine} {rest : List ClosedLine} (head : s.rng.closed = x :: rest)
    (ready : x.state ≠ .colouring) : s.commitReady = (s.commitHead x.line).commitReady := by
  have goes : x.state.ready = true := by
    cases state : x.state with
    | colouring => exact absurd state ready
    | coloured => rfl
    | skipped => rfl
  have left : (s.commitHead x.line).rng.closed = rest := by
    rw [(s.commitHead_lines x.line).closed]
    show s.rng.closed.tail = rest
    rw [head, List.tail_cons]
  rw [State.commitReady, State.commitReady, head, List.length_cons, left, State.commitReadyIn]
  simp only [head, goes, if_true]

/-- The lost count goes to line `n` (R89). -/
def Rng.takesLost (r : Rng) (n : Nat) : Bool :=
  decide (0 < r.lostCount) && (r.lostBoundary.map (fun b => decide (b < n))).getD false

theorem Rng.takesLost_iff (r : Rng) (n : Nat) :
    r.takesLost n = true ↔ 0 < r.lostCount ∧ ∃ b, r.lostBoundary = some b ∧ b < n := by
  unfold Rng.takesLost
  cases r.lostBoundary <;> simp

theorem Rng.commitLine_eq (r : Rng) (l : RingLine) : r.commitLine l = { r with
    committed := r.committed ++ [{ l with header := { l.header with
      lostBefore := if r.takesLost l.number then r.lostCount else 0 } }]
    closed := r.closed.tail
    lostCount := if r.takesLost l.number then 0 else r.lostCount
    lostBoundary := if r.takesLost l.number then none else r.lostBoundary } := by
  have lost : r.lostBeforeOf l.number = if r.takesLost l.number then r.lostCount else 0 := by
    simp [Rng.lostBeforeOf, Rng.takesLost]
  rw [Rng.commitLine, lost]
  rfl

theorem Clr.joinPending_eq (c : Clr) (l : RingLine) : c.joinPending l =
    { c with pendingList := c.pendingList ++ (if l.header.colour = .pending then [l.number] else []) } := by
  unfold Clr.joinPending
  cases l.header.colour with
  | settled => simp
  | pending => simp

/-- The line is in its new place, and nothing is raised yet. -/
def State.lineMoved (s : State) (l : RingLine) : State := { s with rng := s.rng.commitLine l, clr := s.clr.joinPending l }

/-- At a commit READY is raised first, then QUALITY for a line with the flag. -/
theorem State.commitHead_eq (s : State) (l : RingLine) : s.commitHead l =
    if l.header.flags.quality then (State.raiseReady s (s.lineMoved l)).raiseAll evQuality
    else State.raiseReady s (s.lineMoved l) := rfl

theorem State.commitHead_rest (s : State) (l : RingLine) :
    s.commitHead l = { s.lineMoved l with atn := (s.commitHead l).atn } := by
  rw [State.commitHead_eq, State.raiseReady_eq]
  split <;> rfl

/-- A raise that READY's raise leaves on a port stays through the commit. -/
theorem State.commitHead_shows {s : State} {l : RingLine} {p : PortId} {e : EventPos}
    (shows : ((State.raiseReady s (s.lineMoved l)).atn.get p).shows e) : ((s.commitHead l).atn.get p).shows e := by
  rw [State.commitHead_eq]
  split
  · exact (Kept.raiseAll _ evQuality).atn _ (Atn.shows_raisable e) p shows
  · exact shows

theorem linesCommit : Statement.LinesCommit := by
  refine ⟨fun s stays => ?_, fun s t l st rest taken n head hn ht htaken => ?_⟩
  · rcases stays with none | ⟨x, rest, head, colouring⟩
    · exact State.commitReady_nil none
    · exact State.commitReady_waits head colouring
  · obtain rfl : taken = s.rng.takesLost n := Bool.eq_iff_iff.2 (htaken.trans (s.rng.takesLost_iff n).symm)
    subst hn
    have rest' := s.commitHead_rest l
    rw [← ht] at rest'
    refine ⟨fun ready => ?_, ?_, ?_, fun p before after up => ?_, fun quality => ?_, ?_⟩
    · rw [ht]
      exact State.commitReady_head head ready
    · rw [rest']
      show s.rng.commitLine l = _
      rw [Rng.commitLine_eq, head]
      rfl
    · rw [rest']
      exact Clr.joinPending_eq s.clr l
    · have gained : (s.lineMoved l).deliverable p ≠ none := by
        rw [rest'] at after
        exact after
      rw [ht]
      refine State.commitHead_shows ?_
      rw [State.atn_raiseReady, if_pos ⟨before, gained⟩]
      show (Atn.raise evReady (s.port p).link (s.atn.get p)).shows evReady
      rw [up]
      exact Atn.shows_raise evReady _
    · rw [ht, State.commitHead_eq, if_pos quality]
      exact raisedEverywhere_raiseAll evQuality _
    · rw [rest']
      exact ⟨rfl, rfl, rfl, rfl, rfl, rfl, rfl, rfl, rfl⟩

/-- Settles O33: an item is discarded or kept (`State.writeItem_discards`, `State.writeItem_keeps`), and the lines commit one
by one (`State.commitReady_head`). -/
theorem linesIntoTheRing : Obligations.LinesIntoTheRing := ⟨discardedItems, writtenItems, linesCommit⟩

end Sys2Proof.Machine

namespace Sys2Proof.Machine

/-! ### Admission (R84 to R86) -/

theorem State.reclaimable_iff (s : State) (n : Nat) : s.reclaimable n = true ↔
    ∀ p, (s.stream p).isOpen = true → (s.stream p).essential = true → n ≤ (s.stream p).releasePoint := by
  unfold State.reclaimable
  rw [List.all_eq_true]
  constructor
  · intro all p opened essential
    have released := all (s.stream p) ((Quad.mem_toList _ _).2 ⟨p, rfl⟩)
    simpa [opened, essential] using released
  · intro released st mem
    obtain ⟨p, rfl⟩ := (Quad.mem_toList _ _).1 mem
    have released := released p
    unfold State.stream at released
    simpa [or_iff_not_imp_left] using released

theorem State.reclaimFor_fits {s : State} {bytes : Nat}
    (fits : s.rng.occupancy + bytes ≤ s.scn.params.ringSize * 67108864) (k : Nat) : State.reclaimFor bytes k s = s := by
  cases k with
  | zero => rfl
  | succ k => exact if_pos fits

theorem State.reclaimFor_held {s : State} {bytes : Nat} {l : RingLine} {rest : List RingLine}
    (head : s.rng.committed = l :: rest) (held : s.reclaimable l.number = false) (k : Nat) :
    State.reclaimFor bytes k s = s := by
  cases k with
  | zero => rfl
  | succ k =>
    rw [State.reclaimFor]
    simp [head, held]

theorem State.reclaimFor_reclaims {s : State} {bytes : Nat} {l : RingLine} {rest : List RingLine}
    (full : s.scn.params.ringSize * 67108864 < s.rng.occupancy + bytes) (head : s.rng.committed = l :: rest)
    (released : s.reclaimable l.number = true) (k : Nat) :
    State.reclaimFor bytes (k + 1) s = State.reclaimFor bytes k (s.reclaimHead l) := by
  have above : ¬ s.rng.occupancy + bytes ≤ ringBytes s.scn.params := Nat.not_le.2 full
  rw [State.reclaimFor, if_neg above]
  simp only [head, released, if_true]

theorem State.admitBytes_unchanged {s : State} {bytes : Nat}
    (unchanged : State.reclaimFor bytes s.rng.committed.length s = s) :
    s.admitBytes bytes = (s, decide (s.rng.occupancy + bytes ≤ s.scn.params.ringSize * 67108864)) := by
  rw [State.admitBytes, unchanged]
  rfl

theorem admission : Statement.Admission := by
  intro s bytes
  refine ⟨fun fits => ?_, fun p l rest full head opened essential ahead => ?_, fun full none => ?_⟩
  · rw [State.admitBytes_unchanged (State.reclaimFor_fits fits _), decide_eq_true fits]
  · have held : s.reclaimable l.number = false := by
      rw [← Bool.not_eq_true, s.reclaimable_iff]
      exact fun released => Nat.not_le.2 ahead (released p opened essential)
    rw [State.admitBytes_unchanged (State.reclaimFor_held head held _), decide_eq_false (Nat.not_le.2 full)]
  · rw [State.admitBytes_unchanged (by rw [none]; rfl), decide_eq_false (Nat.not_le.2 full)]

theorem State.committed_reclaimHead {s : State} {l : RingLine} {rest : List RingLine} (head : s.rng.committed = l :: rest) :
    (s.reclaimHead l).rng.committed = rest := by
  rw [(s.reclaimHead_committed l).committed]
  show s.rng.committed.tail = rest
  rw [head, List.tail_cons]

theorem reclaimForAdmission : Statement.ReclaimForAdmission := by
  intro s bytes l rest full head released
  have released : s.reclaimable l.number = true := (s.reclaimable_iff _).2 released
  rw [State.admitBytes, State.admitBytes, head, List.length_cons, State.reclaimFor_reclaims full head released,
    State.committed_reclaimHead head]

theorem abandonment : Statement.Abandonment := by
  intro n lost s t ht
  rw [ht]
  exact ⟨rfl, rfl, raisedEverywhere_raiseAll evLost _, rfl, rfl, rfl, rfl, rfl⟩

/-! ### Port by port -/

/-- What the part holds for one client: its stream, its port and its attention controller. -/
structure ClientSide where
  stream : Stream
  port : Port
  atn : Atn

def State.clientSide (s : State) (p : PortId) : ClientSide := ⟨s.stream p, s.port p, s.atn.get p⟩

/-- Work on one port that depends on that port's client alone, done for every port in turn. -/
structure PortWise (f : State → PortId → State) (g : ClientSide → ClientSide) : Prop where
  same : ∀ s p, (f s p).clientSide p = g (s.clientSide p)
  other : ∀ s p q, q ≠ p → (f s p).clientSide q = s.clientSide q

theorem PortWise.foldl_other {f : State → PortId → State} {g : ClientSide → ClientSide} (h : PortWise f g) {q : PortId}
    {l : List PortId} (absent : q ∉ l) (s : State) : (l.foldl f s).clientSide q = s.clientSide q := by
  induction l generalizing s with
  | nil => rfl
  | cons p l ih =>
    rw [List.mem_cons, not_or] at absent
    exact (ih absent.2 _).trans (h.other s p q absent.1)

theorem PortWise.foldl_mem {f : State → PortId → State} {g : ClientSide → ClientSide} (h : PortWise f g) {q : PortId}
    {l : List PortId} (once : l.Nodup) (mem : q ∈ l) (s : State) : (l.foldl f s).clientSide q = g (s.clientSide q) := by
  induction l generalizing s with
  | nil => cases mem
  | cons p l ih =>
    rw [List.nodup_cons] at once
    rw [List.foldl_cons]
    rcases List.mem_cons.1 mem with rfl | mem
    · rw [h.foldl_other once.1, h.same]
    · have apart : q ≠ p := fun same => once.1 (same ▸ mem)
      rw [ih once.2 mem, h.other s p q apart]

theorem allPorts_nodup : allPorts.Nodup := by decide

theorem mem_allPorts (p : PortId) : p ∈ allPorts := by
  revert p
  decide

theorem PortWise.clientSide {f : State → PortId → State} {g : ClientSide → ClientSide} (h : PortWise f g) (s : State)
    (p : PortId) : (allPorts.foldl f s).clientSide p = g (s.clientSide p) := h.foldl_mem allPorts_nodup (mem_allPorts p) s

theorem bump_bump (n j k : Nat) : bump (bump n j) k = bump n (j + k) := by
  unfold bump
  omega

/-- A counter that counts the ports at which something happens. -/
theorem PortWise.foldl_count {f : State → PortId → State} {g : ClientSide → ClientSide} (h : PortWise f g)
    {counter : State → Nat} {happens : ClientSide → Bool}
    (counts : ∀ s p, counter (f s p) = if happens (s.clientSide p) then bump (counter s) 1 else counter s)
    {l : List PortId} (once : l.Nodup) (s : State) : counter (l.foldl f s) =
      if l.countP (fun p => happens (s.clientSide p)) = 0 then counter s
      else bump (counter s) (l.countP (fun p => happens (s.clientSide p))) := by
  induction l generalizing s with
  | nil => rfl
  | cons p l ih =>
    rw [List.nodup_cons] at once
    have later : l.countP (fun q => happens ((f s p).clientSide q)) = l.countP (fun q => happens (s.clientSide q)) := by
      refine List.countP_congr fun q mem => ?_
      rw [h.other s p q (fun same => once.1 (same ▸ mem))]
    rw [List.foldl_cons, ih once.2, later, counts, List.countP_cons]
    cases happens (s.clientSide p) with
    | false => rfl
    | true =>
      simp only [if_true, Nat.add_eq_zero_iff, Nat.one_ne_zero, and_false, if_false]
      split
      · rename_i none
        rw [none]
      · rw [bump_bump, Nat.add_comm]

theorem foldl_field {α β : Type} {f : State → α → State} {field : State → β} (h : ∀ s a, field (f s a) = field s)
    (l : List α) (s : State) : field (l.foldl f s) = field s := by
  induction l generalizing s with
  | nil => rfl
  | cons a l ih => exact (ih _).trans (h s a)

end Sys2Proof.Machine

namespace Sys2Proof.Machine

/-! ### A command in flight ends with CHECK (R170, R173) -/

/-- The port once the command on `tag` has ended with CHECK. -/
def Port.checked (q : Port) (tag : Tag) (cls : SenseClass) (code : Nat) (info : Option Nat) : Port :=
  (q.idleTag tag).refuse tag cls code info

theorem Port.checked_tags (q : Port) (tag : Tag) (cls : SenseClass) (code : Nat) (info : Option Nat) :
    (q.checked tag cls code info).tags.get tag = none := by
  show ((q.idleTag tag).hand _).tags.get tag = none
  rw [Port.hand_tags]
  exact Quad.get_set_same _ _ _

theorem Port.checked_sense (q : Port) (tag : Tag) (cls : SenseClass) (code : Nat) (info : Option Nat) :
    (q.checked tag cls code info).sense = ⟨cls, code, info.getD 0, info.isSome, tag⟩ := rfl

theorem Port.checked_outgoing {q : Port} (up : q.link = .up) (tag : Tag) (cls : SenseClass) (code : Nat)
    (info : Option Nat) : checkFrame tag cls code ∈ (q.checked tag cls code info).outgoing := by
  show checkFrame tag cls code ∈ ((q.idleTag tag).hand (checkFrame tag cls code)).outgoing
  rw [Port.hand_up _ (q.idleTag tag) up]
  exact List.mem_append_right _ List.mem_cons_self

/-! ### What pins that go leave alone (R127) -/

/-- Final replies without a sense class are added: sense records stay, and so does every frame of an ended command. -/
structure RepliesAdded (s t : State) : Prop where
  sense : ∀ p, (t.port p).sense = (s.port p).sense
  frames : ∀ p, ∀ f ∈ (s.port p).outgoing, f.finished = true → f ∈ (t.port p).outgoing

theorem RepliesAdded.of_prt {s t : State} (h : t.prt = s.prt) : RepliesAdded s t := by
  constructor
  · intro p
    rw [State.port, State.port, h]
  · intro p f mem _
    rw [State.port, h]
    exact mem

theorem RepliesAdded.trans {s t u : State} (h : RepliesAdded s t) (k : RepliesAdded t u) : RepliesAdded s u :=
  ⟨fun p => (k.sense p).trans (h.sense p), fun p f mem ended => k.frames p f (h.frames p f mem ended) ended⟩

theorem RepliesAdded.finish (s : State) (p : PortId) (tag : Tag) (st : Status) : RepliesAdded s (s.finish p tag st) := by
  have stays (q : Port) : ∀ f ∈ q.outgoing, f.finished = true → f ∈ ((q.idleTag tag).answer tag st).outgoing := by
    intro f mem ended
    have kept : f ∈ (q.idleTag tag).outgoing := by
      refine List.mem_map.2 ⟨f, mem, ?_⟩
      split
      · rw [← ended]
      · rfl
    unfold Port.answer Port.hand
    split
    · exact kept
    · exact List.mem_append_left _ kept
  constructor
  · intro q
    by_cases same : q = p
    · rw [same]
      exact (congrArg Port.sense (State.port_modPort_same s p _)).trans (Port.hand_sense _ _)
    · exact congrArg Port.sense (State.port_modPort_other s _ same)
  · intro q f mem ended
    by_cases same : q = p
    · rw [same] at mem ⊢
      rw [State.finish, State.port_modPort_same]
      exact stays _ f mem ended
    · rw [State.finish, State.port_modPort_other s _ same]
      exact mem

theorem RepliesAdded.retireDones (l : List TileSlot) (s : State) : RepliesAdded s (l.foldl State.retireDone s) := by
  induction l generalizing s with
  | nil => exact .of_prt rfl
  | cons t l ih =>
    refine RepliesAdded.trans ?_ (ih _)
    unfold State.retireDone
    split
    · exact .of_prt rfl
    · exact .finish s _ _ _

theorem State.retireDones_rest (l : List TileSlot) (s : State) :
    l.foldl State.retireDone s = { s with prt := (l.foldl State.retireDone s).prt } := by
  have one (s : State) (t : TileSlot) : s.retireDone t = { s with prt := (s.retireDone t).prt } := by
    unfold State.retireDone
    split <;> rfl
  induction l generalizing s with
  | nil => rfl
  | cons t l ih => rw [List.foldl_cons, ih, one]

/-- The slots of the tile table once every pin has gone: a RETIRING slot that was pinned is FREE. -/
def Clr.unpinned (c : Clr) : List TileSlot :=
  (c.slots.filter (fun t => !(decide (t.state = .retiring) && decide (0 < t.pins)))).map (fun t => { t with pins := 0 })

theorem Clr.pins_of_mem_unpinned {c : Clr} {t : TileSlot} (mem : t ∈ c.unpinned) : t.pins = 0 := by
  obtain ⟨u, -, rfl⟩ := List.mem_map.1 mem
  rfl

theorem State.releasePins_rest (s : State) : s.releasePins =
    { s with clr := { s.clr with slots := s.clr.unpinned }, prt := s.releasePins.prt } :=
  State.retireDones_rest _ _

theorem RepliesAdded.releasePins (s : State) : RepliesAdded s s.releasePins := by
  refine RepliesAdded.trans ?_ (.retireDones _ _)
  exact .of_prt rfl

/-- A cut pass or step: the pins go, and its transfer is no longer wanted (R144). -/
theorem State.cutPass_some {s : State} {x : Pass} (pass : s.clr.pass = some x) : s.cutPass = { s with
    rng := { s.rng with inProgress := s.cutPass.rng.inProgress }
    clr := { s.clr with pass := none, slots := s.clr.unpinned }
    prt := s.cutPass.prt } := by
  have cut : s.cutPass = ({ s with clr := { s.clr with pass := none } } : State).releasePins.withdraw .clr := by
    rw [State.cutPass, pass]
  rw [cut, State.releasePins_rest]
  rfl

theorem State.cutPass_none {s : State} (pass : s.clr.pass = none) : s.cutPass = s := by
  rw [State.cutPass, pass]

theorem RepliesAdded.cutPass (s : State) : RepliesAdded s s.cutPass := by
  have uncoloured : RepliesAdded s { s with clr := { s.clr with pass := none } } := .of_prt rfl
  have withdrawn (u : State) : RepliesAdded u (u.withdraw .clr) := .of_prt rfl
  unfold State.cutPass
  split
  · exact .of_prt rfl
  · exact (uncoloured.trans (.releasePins _)).trans (withdrawn _)

/-- A cut changes CLR, ports, and of the ring only whether its transfer is wanted. -/
theorem State.cutPass_rest (s : State) : s.cutPass = { s with
    rng := { s.rng with inProgress := s.cutPass.rng.inProgress }
    clr := s.cutPass.clr
    prt := s.cutPass.prt } := by
  cases pass : s.clr.pass with
  | none => rw [State.cutPass_none pass]
  | some x => rw [State.cutPass_some pass]

/-- Of CLR a cut changes the pass and the slots. -/
theorem State.cutPass_clr (s : State) :
    s.cutPass.clr = { s.clr with pass := none, slots := s.cutPass.clr.slots } := by
  cases pass : s.clr.pass with
  | none => rw [State.cutPass_none pass, ← pass]
  | some x => rw [State.cutPass_some pass]

/-! ### CLR takes a reclaim notice (R87, R138, R144) -/

/-- The line has left the pending-line list. -/
def State.pendingForgets (s : State) (n : Nat) : State :=
  { s with clr := { s.clr with pendingList := s.clr.pendingList.filter (fun m => decide (m ≠ n)) } }

theorem State.clrReclaim_cut {s : State} {n : Nat} {x : Pass} (pass : s.clr.pass = some x) (step : x.kind ≠ .firstPass)
    (line : x.line = n) : s.clrReclaim n = (s.pendingForgets n).cutPass := by
  have isStep : x.kind.isStep = true := by
    rw [← Bool.not_eq_false, x.kind.isStep_eq_false_iff]
    exact step
  rw [State.clrReclaim, pass]
  simp only [isStep, line, decide_true, Bool.true_and, if_true]
  rfl

theorem State.clrReclaim_stays {s : State} {n : Nat}
    (stays : ∀ x, s.clr.pass = some x → x.kind = .firstPass ∨ x.line ≠ n) : s.clrReclaim n = s.pendingForgets n := by
  rw [State.clrReclaim]
  cases pass : s.clr.pass with
  | none => rfl
  | some x =>
    have other : (x.kind.isStep && decide (x.line = n)) = false := by
      rw [Bool.and_eq_false_iff, x.kind.isStep_eq_false_iff, decide_eq_false_iff_not]
      exact stays x pass
    simp only [other]
    rfl

theorem State.clrReclaim_rest (s : State) (n : Nat) : s.clrReclaim n = { s with
    rng := { s.rng with inProgress := (s.clrReclaim n).rng.inProgress }
    clr := (s.clrReclaim n).clr
    prt := (s.clrReclaim n).prt } := by
  by_cases stays : ∀ x, s.clr.pass = some x → x.kind = .firstPass ∨ x.line ≠ n
  · rw [State.clrReclaim_stays stays]
    rfl
  · push Not at stays
    obtain ⟨x, pass, step, line⟩ := stays
    rw [State.clrReclaim_cut pass step line, State.cutPass_rest]
    rfl

/-- Of CLR a reclaim notice changes the pending-line list, the pass and the slots. -/
theorem State.clrReclaim_clr (s : State) (n : Nat) : (s.clrReclaim n).clr = { s.clr with
    pendingList := s.clr.pendingList.filter (fun m => decide (m ≠ n))
    pass := (s.clrReclaim n).clr.pass
    slots := (s.clrReclaim n).clr.slots } := by
  by_cases stays : ∀ x, s.clr.pass = some x → x.kind = .firstPass ∨ x.line ≠ n
  · rw [State.clrReclaim_stays stays]
    rfl
  · push Not at stays
    obtain ⟨x, pass, step, line⟩ := stays
    rw [State.clrReclaim_cut pass step line, State.cutPass_clr]
    rfl

theorem RepliesAdded.clrReclaim (s : State) (n : Nat) : RepliesAdded s (s.clrReclaim n) := by
  have forgotten : RepliesAdded s (s.pendingForgets n) := .of_prt rfl
  by_cases stays : ∀ x, s.clr.pass = some x → x.kind = .firstPass ∨ x.line ≠ n
  · rw [State.clrReclaim_stays stays]
    exact forgotten
  · push Not at stays
    obtain ⟨x, pass, step, line⟩ := stays
    rw [State.clrReclaim_cut pass step line]
    exact forgotten.trans (.cutPass _)

/-! ### STR takes a reclaim notice, port by port (R87, R152, R157) -/

theorem Stream.overrunBy_iff (st : Stream) (n : Nat) :
    st.overrunBy n = true ↔ st.isOpen = true ∧ st.essential = false ∧ st.releasePoint < n := by
  simp [Stream.overrunBy, and_assoc]

theorem Stream.delivers_eq_some_iff (st : Stream) (n : Nat) (r : LinesRead) :
    st.delivers n = some r ↔ st.read = some r ∧ ∃ holding sent, r.state = .delivering n holding sent := by
  unfold Stream.delivers
  cases st.read with
  | none => simp
  | some x =>
    obtain ⟨tag, left, state⟩ := x
    cases state with
    | waiting =>
      constructor
      · nofun
      · rintro ⟨⟨⟩, holding, sent, ⟨⟩⟩
    | delivering m holding sent =>
      by_cases line : m = n
      · simp only [line, if_true]
        constructor
        · rintro ⟨⟩
          exact ⟨rfl, holding, sent, rfl⟩
        · rintro ⟨⟨⟩, -⟩
          rfl
      · simp only [line, if_false]
        constructor
        · nofun
        · rintro ⟨⟨⟩, -, -, ⟨⟩⟩
          exact absurd rfl line

/-- The delivery that the reclaim of line `n` cuts. -/
def Stream.cutBy (st : Stream) (n : Nat) : Option LinesRead := if st.overrunBy n then st.delivers n else none

/-- The stream once line `n` has been reclaimed. -/
def Stream.reclaimed (st : Stream) (n : Nat) : Stream :=
  { st with
    table := st.table.filter (fun x => decide (x.line ≠ n))
    readPoint := if st.overrunBy n then max st.readPoint n else st.readPoint
    releasePoint := if st.overrunBy n then n else st.releasePoint
    read := if (st.cutBy n).isSome then none else st.read }

/-- A client's side once line `n` has been reclaimed: a cut delivery ends CHECK GONE, an advance raises OVERRUN. -/
def ClientSide.reclaimed (n : Nat) (c : ClientSide) : ClientSide where
  stream := c.stream.reclaimed n
  port := (c.stream.cutBy n).elim c.port (fun r => c.port.checked r.tag .gone 0 (some n))
  atn := if c.stream.overrunBy n then c.atn.raise evOverrun c.port.link else c.atn

/-- The overrun of a stream is counted, after OVERRUN is raised on its port. -/
def State.streamOverrun (s : State) (n : Nat) (p : PortId) : State :=
  let s1 := ((s.modStr p (fun st => st.forget n)).modStr p (fun st => st.advance n)).raiseOn p evOverrun
  { s1 with rng := { s1.rng with counters :=
    { s1.rng.counters with streamOverruns := bump s1.rng.counters.streamOverruns 1 } } }

theorem State.reclaimOn_passed {s : State} {p : PortId} {n : Nat} (passed : (s.stream p).overrunBy n = false) :
    State.reclaimOn n s p = s.modStr p (fun st => st.forget n) := by
  simp only [State.reclaimOn, passed]
  rfl

theorem State.reclaimOn_advanced {s : State} {p : PortId} {n : Nat} (advanced : (s.stream p).overrunBy n = true)
    (idle : (s.stream p).delivers n = none) : State.reclaimOn n s p = s.streamOverrun n p := by
  simp only [State.reclaimOn, advanced, idle, if_true]
  rfl

theorem State.reclaimOn_cut {s : State} {p : PortId} {n : Nat} {r : LinesRead}
    (advanced : (s.stream p).overrunBy n = true) (delivers : (s.stream p).delivers n = some r) :
    State.reclaimOn n s p = (s.streamOverrun n p).cutDelivery p r n := by
  simp only [State.reclaimOn, advanced, delivers, if_true]
  rfl

theorem State.clientSide_streamOverrun (s : State) (n : Nat) (p : PortId) : (s.streamOverrun n p).clientSide p =
    ⟨((s.stream p).forget n).advance n, s.port p, (s.atn.get p).raise evOverrun (s.port p).link⟩ := by
  simp [State.clientSide, State.streamOverrun, State.stream, State.port]

theorem State.clientSide_cutDelivery (s : State) (p : PortId) (r : LinesRead) (n : Nat) :
    (s.cutDelivery p r n).clientSide p =
      ⟨{ s.stream p with read := none }, (s.port p).checked r.tag .gone 0 (some n), s.atn.get p⟩ := by
  have stream : (s.cutDelivery p r n).stream p = { s.stream p with read := none } :=
    State.stream_modStr_same s p (fun st => { st with read := none })
  have port : (s.cutDelivery p r n).port p = (s.port p).checked r.tag .gone 0 (some n) :=
    State.port_modPort_same (s.stopRead p) p (fun q => q.checked r.tag .gone 0 (some n))
  rw [State.clientSide, stream, port]
  rfl

theorem ClientSide.reclaimed_passed {c : ClientSide} {n : Nat} (passed : c.stream.overrunBy n = false) :
    c.reclaimed n = { c with stream := c.stream.forget n } := by
  simp [ClientSide.reclaimed, Stream.reclaimed, Stream.cutBy, Stream.forget, passed]

theorem ClientSide.reclaimed_advanced {c : ClientSide} {n : Nat} (advanced : c.stream.overrunBy n = true)
    (idle : c.stream.delivers n = none) : c.reclaimed n =
      ⟨(c.stream.forget n).advance n, c.port, c.atn.raise evOverrun c.port.link⟩ := by
  simp [ClientSide.reclaimed, Stream.reclaimed, Stream.cutBy, Stream.forget, Stream.advance, advanced, idle]

theorem ClientSide.reclaimed_cut {c : ClientSide} {n : Nat} {r : LinesRead} (advanced : c.stream.overrunBy n = true)
    (delivers : c.stream.delivers n = some r) : c.reclaimed n =
      ⟨{ (c.stream.forget n).advance n with read := none }, c.port.checked r.tag .gone 0 (some n),
        c.atn.raise evOverrun c.port.link⟩ := by
  simp [ClientSide.reclaimed, Stream.reclaimed, Stream.cutBy, Stream.forget, Stream.advance, advanced, delivers]

theorem State.clientSide_modStr_same (s : State) (p : PortId) (f : Stream → Stream) :
    (s.modStr p f).clientSide p = { s.clientSide p with stream := f (s.stream p) } := by
  rw [State.clientSide, State.stream_modStr_same]
  rfl

theorem State.clientSide_modStr_other (s : State) {p q : PortId} (apart : q ≠ p) (f : Stream → Stream) :
    (s.modStr p f).clientSide q = s.clientSide q := by
  rw [State.clientSide, State.stream_modStr_other s f apart]
  rfl

theorem State.clientSide_modPort_other (s : State) {p q : PortId} (apart : q ≠ p) (f : Port → Port) :
    (s.modPort p f).clientSide q = s.clientSide q := by
  rw [State.clientSide, State.port_modPort_other s f apart]
  rfl

theorem State.clientSide_streamOverrun_other (s : State) (n : Nat) {p q : PortId} (apart : q ≠ p) :
    (s.streamOverrun n p).clientSide q = s.clientSide q := by
  have raised (u : State) : (u.raiseOn p evOverrun).clientSide q = u.clientSide q := by
    rw [State.clientSide, State.atn_raiseOn_other u evOverrun apart]
    rfl
  exact (raised _).trans ((State.clientSide_modStr_other _ apart _).trans (State.clientSide_modStr_other s apart _))

theorem State.clientSide_cutDelivery_other (s : State) {p q : PortId} (apart : q ≠ p) (r : LinesRead) (n : Nat) :
    (s.cutDelivery p r n).clientSide q = s.clientSide q :=
  (State.clientSide_modPort_other (s.stopRead p) apart (fun q => q.checked r.tag .gone 0 (some n))).trans
    (State.clientSide_modStr_other s apart (fun st => { st with read := none }))

theorem PortWise.reclaimOn (n : Nat) : PortWise (State.reclaimOn n) (ClientSide.reclaimed n) := by
  constructor
  · intro s p
    cases advanced : (s.stream p).overrunBy n with
    | false =>
      rw [State.reclaimOn_passed advanced, State.clientSide_modStr_same]
      exact (ClientSide.reclaimed_passed (c := s.clientSide p) advanced).symm
    | true =>
      have overrun := State.clientSide_streamOverrun s n p
      cases delivers : (s.stream p).delivers n with
      | none =>
        rw [State.reclaimOn_advanced advanced delivers, overrun]
        exact (ClientSide.reclaimed_advanced (c := s.clientSide p) advanced delivers).symm
      | some r =>
        obtain ⟨stream, port, atn⟩ := ClientSide.mk.inj overrun
        rw [State.reclaimOn_cut advanced delivers, State.clientSide_cutDelivery, stream, port, atn]
        exact (ClientSide.reclaimed_cut (c := s.clientSide p) advanced delivers).symm
  · intro s p q apart
    cases advanced : (s.stream p).overrunBy n with
    | false =>
      rw [State.reclaimOn_passed advanced]
      exact s.clientSide_modStr_other apart _
    | true =>
      have overrun := s.clientSide_streamOverrun_other n apart
      cases delivers : (s.stream p).delivers n with
      | none => rw [State.reclaimOn_advanced advanced delivers, overrun]
      | some r => rw [State.reclaimOn_cut advanced delivers, State.clientSide_cutDelivery_other _ apart, overrun]

theorem State.streamOverrun_unchanged (s : State) (n : Nat) (p : PortId) :
    (s.streamOverrun n p).lnb = s.lnb ∧ (s.streamOverrun n p).clr = s.clr := ⟨rfl, rfl⟩

theorem State.cutDelivery_unchanged (s : State) (p : PortId) (r : LinesRead) (n : Nat) :
    (s.cutDelivery p r n).lnb = s.lnb ∧ (s.cutDelivery p r n).clr = s.clr := ⟨rfl, rfl⟩

/-- STR's notice leaves LNB and CLR alone. -/
theorem State.reclaimOn_unchanged (n : Nat) (s : State) (p : PortId) :
    (State.reclaimOn n s p).lnb = s.lnb ∧ (State.reclaimOn n s p).clr = s.clr := by
  cases advanced : (s.stream p).overrunBy n with
  | false =>
    rw [State.reclaimOn_passed advanced]
    exact ⟨rfl, rfl⟩
  | true =>
    obtain ⟨lnb, clr⟩ := s.streamOverrun_unchanged n p
    cases delivers : (s.stream p).delivers n with
    | none =>
      rw [State.reclaimOn_advanced advanced delivers]
      exact ⟨lnb, clr⟩
    | some r =>
      obtain ⟨lnb', clr'⟩ := (s.streamOverrun n p).cutDelivery_unchanged p r n
      rw [State.reclaimOn_cut advanced delivers]
      exact ⟨lnb'.trans lnb, clr'.trans clr⟩

theorem State.reclaimOn_streamOverruns (n : Nat) (s : State) (p : PortId) :
    (State.reclaimOn n s p).rng.counters.streamOverruns =
      if (s.stream p).overrunBy n then bump s.rng.counters.streamOverruns 1 else s.rng.counters.streamOverruns := by
  cases advanced : (s.stream p).overrunBy n with
  | false =>
    rw [State.reclaimOn_passed advanced]
    rfl
  | true =>
    cases delivers : (s.stream p).delivers n with
    | none =>
      rw [State.reclaimOn_advanced advanced delivers]
      rfl
    | some r =>
      rw [State.reclaimOn_cut advanced delivers]
      rfl

theorem State.reclaimOn_cutDeliveries (n : Nat) (s : State) (p : PortId) :
    (State.reclaimOn n s p).strCounters.cutDeliveries =
      if ((s.stream p).cutBy n).isSome then bump s.strCounters.cutDeliveries 1 else s.strCounters.cutDeliveries := by
  cases advanced : (s.stream p).overrunBy n with
  | false =>
    rw [State.reclaimOn_passed advanced, Stream.cutBy, advanced]
    rfl
  | true =>
    rw [Stream.cutBy, advanced]
    cases delivers : (s.stream p).delivers n with
    | none =>
      rw [State.reclaimOn_advanced advanced delivers]
      rfl
    | some r =>
      rw [State.reclaimOn_cut advanced delivers]
      rfl

end Sys2Proof.Machine

namespace Sys2Proof.Machine

theorem State.strReclaim_clientSide (s : State) (n : Nat) (p : PortId) :
    (s.strReclaim n).clientSide p = (s.clientSide p).reclaimed n := (PortWise.reclaimOn n).clientSide s p

theorem State.strReclaim_lnb (s : State) (n : Nat) : (s.strReclaim n).lnb = s.lnb :=
  foldl_field (field := State.lnb) (fun s p => (s.reclaimOn_unchanged n p).1) _ s

theorem State.strReclaim_clr (s : State) (n : Nat) : (s.strReclaim n).clr = s.clr :=
  foldl_field (field := State.clr) (fun s p => (s.reclaimOn_unchanged n p).2) _ s

theorem State.strReclaim_streamOverruns (s : State) (n : Nat) : (s.strReclaim n).rng.counters.streamOverruns =
    if allPorts.countP (fun p => (s.stream p).overrunBy n) = 0 then s.rng.counters.streamOverruns
    else bump s.rng.counters.streamOverruns (allPorts.countP (fun p => (s.stream p).overrunBy n)) :=
  (PortWise.reclaimOn n).foldl_count (counter := fun s => s.rng.counters.streamOverruns)
    (happens := fun c => c.stream.overrunBy n) (State.reclaimOn_streamOverruns n) allPorts_nodup s

theorem State.strReclaim_cutDeliveries (s : State) (n : Nat) : (s.strReclaim n).strCounters.cutDeliveries =
    if allPorts.countP (fun p => ((s.stream p).cutBy n).isSome) = 0 then s.strCounters.cutDeliveries
    else bump s.strCounters.cutDeliveries (allPorts.countP (fun p => ((s.stream p).cutBy n).isSome)) :=
  (PortWise.reclaimOn n).foldl_count (counter := fun s => s.strCounters.cutDeliveries)
    (happens := fun c => (c.stream.cutBy n).isSome) (State.reclaimOn_cutDeliveries n) allPorts_nodup s

/-! ### The oldest committed line is reclaimed (R85, R87, R154) -/

/-- STR has taken the reclaim notice of the oldest committed line, and CLR has not. -/
def State.strTold (s : State) (l : RingLine) : State :=
  ({ s with rng := { s.rng with committed := s.rng.committed.tail } } : State).strReclaim l.number

/-- Both reclaim notices are taken, and READY is not raised yet. -/
def State.bothTold (s : State) (l : RingLine) : State := (s.strTold l).clrReclaim l.number

theorem State.reclaimHead_eq (s : State) (l : RingLine) : s.reclaimHead l = State.raiseReady s (s.bothTold l) := rfl

theorem State.strTold_clientSide (s : State) (l : RingLine) (p : PortId) :
    (s.strTold l).clientSide p = (s.clientSide p).reclaimed l.number := State.strReclaim_clientSide _ _ p

/-- CLR's notice and the raise of READY leave the rest as STR's notice did. -/
theorem State.reclaimHead_rest (s : State) (l : RingLine) : s.reclaimHead l = { s.strTold l with
    rng := { (s.strTold l).rng with inProgress := (s.bothTold l).rng.inProgress }
    clr := (s.bothTold l).clr
    prt := (s.bothTold l).prt
    atn := (s.reclaimHead l).atn } := by
  have told : s.bothTold l = _ := (s.strTold l).clrReclaim_rest l.number
  rw [State.reclaimHead_eq, State.raiseReady_eq, told]

theorem State.reclaimHead_stream (s : State) (l : RingLine) (p : PortId) :
    (s.reclaimHead l).stream p = (s.stream p).reclaimed l.number := by
  rw [State.reclaimHead_rest]
  exact congrArg ClientSide.stream (s.strTold_clientSide l p)

theorem State.reclaimHead_deliverable (s : State) (l : RingLine) (p : PortId) :
    (s.reclaimHead l).deliverable p = (s.bothTold l).deliverable p := by
  rw [State.reclaimHead_eq, State.raiseReady_eq]
  rfl

theorem State.bothTold_atn (s : State) (l : RingLine) (p : PortId) : (s.bothTold l).atn.get p =
    if (s.stream p).overrunBy l.number then (s.atn.get p).raise evOverrun (s.port p).link else s.atn.get p := by
  have told : s.bothTold l = _ := (s.strTold l).clrReclaim_rest l.number
  rw [told]
  exact congrArg ClientSide.atn (s.strTold_clientSide l p)

theorem State.reclaimHead_atn (s : State) (l : RingLine) (p : PortId) : (s.reclaimHead l).atn.get p =
    if s.deliverable p = none ∧ (s.reclaimHead l).deliverable p ≠ none then
      ((s.bothTold l).atn.get p).raise evReady (s.port p).link
    else (s.bothTold l).atn.get p := by
  have ports : (s.reclaimHead l).prt = (s.bothTold l).prt := by rw [State.reclaimHead_rest]
  have link : ((s.bothTold l).port p).link = (s.port p).link := by
    rw [← (Kept.reclaimHead s l).link p, State.port, State.port, ports]
  rw [State.reclaimHead_deliverable, State.reclaimHead_eq, State.atn_raiseReady, link]

theorem State.reclaimHead_overrun {s : State} {l : RingLine} {p : PortId}
    (advanced : (s.stream p).overrunBy l.number = true) (up : (s.port p).link = .up) :
    ((s.reclaimHead l).atn.get p).shows evOverrun := by
  have told : ((s.bothTold l).atn.get p).shows evOverrun := by
    rw [State.bothTold_atn, if_pos advanced, up]
    exact Atn.shows_raise evOverrun _
  rw [State.reclaimHead_atn]
  split
  · exact Atn.shows_raisable evOverrun _ _ _ told
  · exact told

/-- CLR's notice and the raise of READY only add final replies. -/
theorem RepliesAdded.reclaimHead (s : State) (l : RingLine) : RepliesAdded (s.strTold l) (s.reclaimHead l) := by
  have same : (s.reclaimHead l).prt = (s.bothTold l).prt := by rw [State.reclaimHead_rest]
  have told : RepliesAdded (s.strTold l) (s.bothTold l) := .clrReclaim _ _
  exact told.trans (.of_prt same)

theorem State.strTold_cut {s : State} {l : RingLine} {p : PortId} {r : LinesRead}
    (cut : (s.stream p).cutBy l.number = some r) :
    (s.strTold l).port p = (s.port p).checked r.tag .gone 0 (some l.number) := by
  have port : (s.strTold l).port p = ((s.clientSide p).reclaimed l.number).port :=
    congrArg ClientSide.port (s.strTold_clientSide l p)
  have cut : (s.clientSide p).stream.cutBy l.number = some r := cut
  rw [port, ClientSide.reclaimed, cut]
  rfl

theorem State.reclaimHead_cut {s : State} {l : RingLine} {p : PortId} {r : LinesRead}
    (cut : (s.stream p).cutBy l.number = some r) : ((s.reclaimHead l).port p).tags.get r.tag = none ∧
      ((s.reclaimHead l).port p).sense = ⟨.gone, 0, l.number, true, r.tag⟩ ∧
      ((s.port p).link = .up → checkFrame r.tag .gone 0 ∈ ((s.reclaimHead l).port p).outgoing) := by
  have ended := State.strTold_cut cut
  have added := RepliesAdded.reclaimHead s l
  have later : Kept (s.strTold l) (s.reclaimHead l) := (Kept.clrReclaim _ _).trans (.raiseReady _ _)
  refine ⟨?_, ?_, fun up => ?_⟩
  · refine later.idle p r.tag ?_
    rw [ended]
    exact Port.checked_tags _ _ _ _ _
  · rw [added.sense p, ended]
    rfl
  · refine added.frames p _ ?_ rfl
    rw [ended]
    exact Port.checked_outgoing up _ _ _ _

theorem State.reclaimHead_clr (s : State) (l : RingLine) : (s.reclaimHead l).clr = { s.clr with
    pendingList := s.clr.pendingList.filter (fun m => decide (m ≠ l.number))
    pass := (s.bothTold l).clr.pass
    slots := (s.bothTold l).clr.slots } := by
  have told := (s.strTold l).clrReclaim_clr l.number
  have str : (s.strTold l).clr = s.clr := State.strReclaim_clr _ _
  rw [str] at told
  rw [State.reclaimHead_rest]
  exact told

theorem State.bothTold_cut {s : State} {l : RingLine} {x : Pass} (pass : s.clr.pass = some x)
    (step : x.kind ≠ .firstPass) (line : x.line = l.number) :
    (s.bothTold l).clr.pass = none ∧ ∀ y ∈ (s.bothTold l).clr.slots, y.pins = 0 := by
  have str : (s.strTold l).clr = s.clr := State.strReclaim_clr _ _
  have running : (s.strTold l).clr.pass = some x := by rw [str, pass]
  have forgotten : ((s.strTold l).pendingForgets l.number).clr.pass = some x := running
  rw [State.bothTold, State.clrReclaim_cut running step line, State.cutPass_some forgotten]
  exact ⟨rfl, fun y mem => Clr.pins_of_mem_unpinned mem⟩

theorem State.bothTold_stays {s : State} {l : RingLine}
    (stays : ∀ x, s.clr.pass = some x → x.kind = .firstPass ∨ x.line ≠ l.number) :
    (s.bothTold l).clr.pass = s.clr.pass ∧ (s.bothTold l).clr.slots = s.clr.slots := by
  have str : (s.strTold l).clr = s.clr := State.strReclaim_clr _ _
  rw [← str] at stays
  rw [State.bothTold, State.clrReclaim_stays stays, ← str]
  exact ⟨rfl, rfl⟩

theorem Kept.sameScan {s t : State} (h : Kept s t) : SameScan s t := ⟨h.tb, h.ang, h.eca, h.scn, h.pending⟩

theorem Stream.cutBy_isSome_iff (st : Stream) (n : Nat) : (st.cutBy n).isSome = true ↔
    st.overrunBy n = true ∧ ∃ r holding sent, st.read = some r ∧ r.state = .delivering n holding sent := by
  unfold Stream.cutBy
  cases st.overrunBy n with
  | false => simp
  | true => simp [Option.isSome_iff_exists, Stream.delivers_eq_some_iff]

theorem Stream.cutBy_eq_some {st : Stream} {n : Nat} {r : LinesRead} (cut : (st.cutBy n).isSome = true)
    (read : st.read = some r) : st.cutBy n = some r := by
  obtain ⟨advanced, x, holding, sent, reads, delivering⟩ := (st.cutBy_isSome_iff n).1 cut
  obtain rfl : x = r := Option.some.inj (reads.symm.trans read)
  rw [Stream.cutBy, if_pos advanced]
  exact (st.delivers_eq_some_iff n x).2 ⟨read, holding, sent, delivering⟩

theorem reclaimOfALine : Statement.ReclaimOfALine := by
  intro s t l rest n advanced cut head hn ht hadvanced hcut
  subst hn ht
  obtain rfl : advanced = fun p => (s.stream p).overrunBy l.number :=
    funext fun p => Bool.eq_iff_iff.2 ((hadvanced p).trans (Stream.overrunBy_iff _ _).symm)
  obtain rfl : cut = fun p => ((s.stream p).cutBy l.number).isSome :=
    funext fun p => Bool.eq_iff_iff.2 ((hcut p).trans (Stream.cutBy_isSome_iff _ _).symm)
  have lines := s.reclaimHead_committed l
  have kept := Kept.reclaimHead s l
  have rest' := s.reclaimHead_rest l
  have clr := s.reclaimHead_clr l
  refine ⟨State.committed_reclaimHead head, lines.closed, lines.openLine, fun p => ?_, fun p => ?_, fun p => ?_,
    fun p a ha => ?_, fun p r iscut read => ?_, ?_, ?_, ?_, fun x pass step line => ?_, fun stays => ?_, ?_, ?_, ?_,
    kept.sameScan, kept.samePorts, ?_, kept.exs⟩
  · rw [State.reclaimHead_stream]
    exact ⟨rfl, rfl, rfl, rfl, rfl⟩
  · rw [State.reclaimHead_stream]
    exact ⟨rfl, rfl, rfl⟩
  · exact State.reclaimHead_overrun
  · rw [ha, State.reclaimHead_atn, State.bothTold_atn]
  · exact State.reclaimHead_cut (Stream.cutBy_eq_some iscut read)
  · rw [rest']
    exact State.strReclaim_streamOverruns _ _
  · rw [rest']
    exact State.strReclaim_cutDeliveries _ _
  · rw [clr]
    rfl
  · rw [clr]
    exact State.bothTold_cut pass step line
  · rw [clr]
    exact State.bothTold_stays stays
  · rw [clr]
  · rw [clr]
  · rw [clr]
  · rw [rest']
    exact State.strReclaim_lnb _ _

end Sys2Proof.Machine

namespace Sys2Proof.Machine

/-! ### A stream is closed, port by port (R156) -/

theorem State.closeStream_closed {s : State} {p : PortId} (shut : (s.stream p).isOpen = false) (replies : Bool) :
    s.closeStream p replies = s := by
  rw [State.closeStream, shut]
  rfl

theorem State.closeStream_idle {s : State} {p : PortId} (opened : (s.stream p).isOpen = true)
    (idle : (s.stream p).read = none) (replies : Bool) :
    s.closeStream p replies = (s.stopRead p).modStr p Stream.closed := by
  simp only [State.closeStream, opened, idle, if_true]

theorem State.closeStream_reading {s : State} {p : PortId} {r : LinesRead} (opened : (s.stream p).isOpen = true)
    (read : (s.stream p).read = some r) : s.closeStream p true =
      ((s.stopRead p).finishCheck p r.tag .aborted 0 none).modStr p Stream.closed := by
  simp only [State.closeStream, opened, read, if_true]

/-- A client's side once its stream is closed: an outstanding LINES READ ends CHECK ABORTED. -/
def ClientSide.closed (c : ClientSide) : ClientSide :=
  if c.stream.isOpen then
    { c with
      stream := c.stream.closed
      port := c.stream.read.elim c.port (fun r => c.port.checked r.tag .aborted 0 none) }
  else c

theorem ClientSide.closed_idle {c : ClientSide} (opened : c.stream.isOpen = true) (idle : c.stream.read = none) :
    c.closed = { c with stream := c.stream.closed } := by
  rw [ClientSide.closed, if_pos opened, idle]
  rfl

theorem ClientSide.closed_reading {c : ClientSide} {r : LinesRead} (opened : c.stream.isOpen = true)
    (read : c.stream.read = some r) :
    c.closed = { c with stream := c.stream.closed, port := c.port.checked r.tag .aborted 0 none } := by
  rw [ClientSide.closed, if_pos opened, read]
  rfl

theorem State.clientSide_stopRead (s : State) (p : PortId) :
    (s.stopRead p).clientSide p = { s.clientSide p with stream := { s.stream p with read := none } } :=
  s.clientSide_modStr_same p (fun st => { st with read := none })

theorem State.clientSide_stopRead_other (s : State) {p q : PortId} (apart : q ≠ p) :
    (s.stopRead p).clientSide q = s.clientSide q :=
  s.clientSide_modStr_other apart (fun st => { st with read := none })

theorem State.clientSide_finishCheck (s : State) (p : PortId) (tag : Tag) (cls : SenseClass) (code : Nat)
    (info : Option Nat) : (s.finishCheck p tag cls code info).clientSide p =
      { s.clientSide p with port := (s.port p).checked tag cls code info } := by
  have port : (s.finishCheck p tag cls code info).port p = (s.port p).checked tag cls code info :=
    s.port_modPort_same p (fun q => q.checked tag cls code info)
  rw [State.clientSide, port]
  rfl

theorem PortWise.closeStream : PortWise (fun s p => s.closeStream p true) ClientSide.closed := by
  constructor
  · intro s p
    cases opened : (s.stream p).isOpen with
    | false =>
      have shut : ¬ (s.clientSide p).stream.isOpen = true := ne_true_of_eq_false opened
      rw [State.closeStream_closed opened, ClientSide.closed, if_neg shut]
    | true =>
      obtain ⟨stream, port, atn⟩ := ClientSide.mk.inj (s.clientSide_stopRead p)
      cases read : (s.stream p).read with
      | none =>
        rw [State.closeStream_idle opened read, State.clientSide_modStr_same, State.clientSide_stopRead, stream]
        exact (ClientSide.closed_idle (c := s.clientSide p) opened read).symm
      | some r =>
        have kept : ((s.stopRead p).finishCheck p r.tag .aborted 0 none).stream p = (s.stopRead p).stream p := rfl
        rw [State.closeStream_reading opened read, State.clientSide_modStr_same, State.clientSide_finishCheck, kept,
          State.clientSide_stopRead, stream, port]
        exact (ClientSide.closed_reading (c := s.clientSide p) opened read).symm
  · intro s p q apart
    cases opened : (s.stream p).isOpen with
    | false => rw [State.closeStream_closed opened]
    | true =>
      cases read : (s.stream p).read with
      | none =>
        rw [State.closeStream_idle opened read, State.clientSide_modStr_other _ apart,
          State.clientSide_stopRead_other s apart]
      | some r =>
        rw [State.closeStream_reading opened read, State.clientSide_modStr_other _ apart, State.finishCheck,
          State.clientSide_modPort_other _ apart, State.clientSide_stopRead_other s apart]

/-- The ring but for the transfer in progress. -/
def Rng.noTransfer (r : Rng) : Rng := { r with inProgress := none }

/-- Closing a stream leaves LNB and CLR alone, and the ring but for whether its transfer is wanted. -/
theorem State.closeStream_unchanged (s : State) (p : PortId) : (s.closeStream p true).lnb = s.lnb ∧
    (s.closeStream p true).clr = s.clr ∧ (s.closeStream p true).rng.noTransfer = s.rng.noTransfer := by
  cases opened : (s.stream p).isOpen with
  | false =>
    rw [State.closeStream_closed opened]
    exact ⟨rfl, rfl, rfl⟩
  | true =>
    cases read : (s.stream p).read with
    | none =>
      rw [State.closeStream_idle opened read]
      exact ⟨rfl, rfl, rfl⟩
    | some r =>
      rw [State.closeStream_reading opened read]
      exact ⟨rfl, rfl, rfl⟩

theorem State.closeStreams_clientSide (s : State) (p : PortId) :
    s.closeStreams.clientSide p = (s.clientSide p).closed := PortWise.closeStream.clientSide s p

theorem State.closeStreams_unchanged (s : State) : s.closeStreams.lnb = s.lnb ∧ s.closeStreams.clr = s.clr ∧
    s.closeStreams.rng.noTransfer = s.rng.noTransfer :=
  ⟨foldl_field (field := State.lnb) (fun s p => (s.closeStream_unchanged p).1) _ s,
    foldl_field (field := State.clr) (fun s p => (s.closeStream_unchanged p).2.1) _ s,
    foldl_field (field := fun s => s.rng.noTransfer) (fun s p => (s.closeStream_unchanged p).2.2) _ s⟩

/-! ### A change of ring size (R46, R93, R144) -/

/-- The ring is emptied and CLR has taken its discard notice; the streams are still as they were. -/
def State.ringDiscarded (s : State) : State := ({ s with rng := s.rng.emptied } : State).clrDiscard

theorem State.resizeRing_eq (s : State) : s.resizeRing = s.ringDiscarded.closeStreams := rfl

/-- CLR has no line left to colour, and no pass or step is cut yet. -/
def State.linesForgotten (s : State) : State :=
  { s with rng := s.rng.emptied, clr := { s.clr with colourQueue := [], pendingList := [] } }

theorem State.ringDiscarded_eq (s : State) : s.ringDiscarded = s.linesForgotten.cutPass := rfl

theorem State.ringDiscarded_rest (s : State) : s.ringDiscarded = { s with
    rng := { s.rng.emptied with inProgress := s.ringDiscarded.rng.inProgress }
    clr := s.ringDiscarded.clr
    prt := s.ringDiscarded.prt } := s.linesForgotten.cutPass_rest

theorem State.ringDiscarded_clr (s : State) : s.ringDiscarded.clr = { s.clr with
    colourQueue := []
    pendingList := []
    pass := none
    slots := s.ringDiscarded.clr.slots } := s.linesForgotten.cutPass_clr

theorem State.ringDiscarded_slots_idle {s : State} (idle : s.clr.pass = none) :
    s.ringDiscarded.clr.slots = s.clr.slots := by
  have idle : s.linesForgotten.clr.pass = none := idle
  rw [State.ringDiscarded_eq, State.cutPass_none idle]
  rfl

theorem State.ringDiscarded_slots_cut {s : State} (running : s.clr.pass ≠ none) :
    s.ringDiscarded.clr.slots = s.clr.unpinned := by
  obtain ⟨x, pass⟩ := Option.ne_none_iff_exists'.1 running
  have pass : s.linesForgotten.clr.pass = some x := pass
  rw [State.ringDiscarded_eq, State.cutPass_some pass]
  rfl

theorem State.resizeRing_clr (s : State) : s.resizeRing.clr = s.ringDiscarded.clr :=
  s.ringDiscarded.closeStreams_unchanged.2.1

theorem State.resizeRing_lnb (s : State) : s.resizeRing.lnb = s.lnb := by
  rw [State.resizeRing_eq, s.ringDiscarded.closeStreams_unchanged.1, State.ringDiscarded_rest]

theorem State.resizeRing_rng (s : State) : s.resizeRing.rng.noTransfer = s.rng.emptied.noTransfer := by
  rw [State.resizeRing_eq, s.ringDiscarded.closeStreams_unchanged.2.2, State.ringDiscarded_rest]
  rfl

theorem State.resizeRing_clientSide (s : State) (p : PortId) :
    s.resizeRing.clientSide p = (s.ringDiscarded.clientSide p).closed := s.ringDiscarded.closeStreams_clientSide p

theorem State.ringDiscarded_stream (s : State) (p : PortId) : s.ringDiscarded.stream p = s.stream p := by
  rw [State.ringDiscarded_rest]
  rfl

theorem State.resizeRing_stream (s : State) (p : PortId) :
    s.resizeRing.stream p = if (s.stream p).isOpen then (s.stream p).closed else s.stream p := by
  have closes : s.resizeRing.stream p = (s.ringDiscarded.clientSide p).closed.stream :=
    congrArg ClientSide.stream (s.resizeRing_clientSide p)
  have same : (s.ringDiscarded.clientSide p).stream = s.stream p := s.ringDiscarded_stream p
  rw [closes, ClientSide.closed, same]
  split
  · rfl
  · exact same

theorem State.resizeRing_port {s : State} {p : PortId} {r : LinesRead} (opened : (s.stream p).isOpen = true)
    (read : (s.stream p).read = some r) :
    s.resizeRing.port p = (s.ringDiscarded.port p).checked r.tag .aborted 0 none := by
  rw [← s.ringDiscarded_stream p] at opened read
  have closes := s.resizeRing_clientSide p
  rw [ClientSide.closed_reading (c := s.ringDiscarded.clientSide p) opened read] at closes
  exact congrArg ClientSide.port closes

theorem Kept.ringDiscarded (s : State) : Kept s s.ringDiscarded := by
  have emptied : Kept s { s with rng := s.rng.emptied } := Kept.of_own rfl rfl rfl rfl rfl rfl rfl rfl rfl rfl
  exact emptied.trans (.clrDiscard _)

theorem ringSizeChange : Statement.RingSizeChange := by
  intro s t ht
  subst ht
  have lines := s.resizeRing_lines
  have kept := Kept.resizeRing s
  have clr := s.resizeRing_clr.trans s.ringDiscarded_clr
  have slots : s.resizeRing.clr.slots = s.ringDiscarded.clr.slots := congrArg Clr.slots s.resizeRing_clr
  have discarding : s.resizeRing.rng.discarding = s.rng.emptied.discarding :=
    (congrArg Rng.discarding s.resizeRing_rng :)
  refine ⟨lines.committed, lines.closed, lines.openLine, lines.occupancy, congrArg Rng.lostCount s.resizeRing_rng,
    congrArg Rng.lostBoundary s.resizeRing_rng, fun o line => ?_, fun none => ?_, congrArg Clr.colourQueue clr,
    congrArg Clr.pendingList clr, congrArg Clr.pass clr, (congrArg Clr.sectors clr :),
    fun idle => slots.trans (State.ringDiscarded_slots_idle idle),
    fun running => slots.trans (State.ringDiscarded_slots_cut running), (congrArg Clr.tileArea clr :),
    (congrArg Clr.work clr :), (congrArg Clr.backfillQueue clr :), (congrArg Clr.sweepMark clr :), s.resizeRing_lnb,
    kept.exs, kept.sameScan, kept.samePorts, fun p => ⟨fun opened => ?_, fun shut => ?_⟩,
    fun p => ⟨?_, fun r opened read => ⟨?_, ?_, fun up => ?_⟩⟩⟩
  · rw [discarding, Rng.emptied, line]
  · rw [discarding, Rng.emptied, none]
  · rw [State.resizeRing_stream, if_pos opened]
    rfl
  · rw [State.resizeRing_stream, if_neg (ne_true_of_eq_false shut)]
  · rw [State.resizeRing_stream]
    split
    · rfl
    · rename_i shut
      exact eq_false_of_ne_true shut
  · rw [State.resizeRing_stream, if_pos opened]
    rfl
  · rw [State.resizeRing_port opened read]
    exact Port.checked_tags _ _ _ _ _
  · rw [State.resizeRing_port opened read]
    exact Port.checked_outgoing (((Kept.ringDiscarded s).link p).trans up) _ _ _ _

/-- Settles O32: reclaim by what each port's client sees of it (`PortWise.reclaimOn`) and CLR's notice behind it, a new ring
size by CLR's discard notice and then each stream's close (`PortWise.closeStream`). -/
theorem ringSpace : Obligations.RingSpace :=
  ⟨admission, reclaimForAdmission, reclaimOfALine, abandonment, ringSizeChange⟩

end Sys2Proof.Machine

namespace Sys2Proof.Machine

/-! ### A trigger cause (R104, R106) -/

theorem Exs.triggered_eq_none {x : Exs} : x.triggered = none ↔ ∀ e ∈ x.log, e.state ≠ .triggered := by
  simp [Exs.triggered]

/-- A trigger cause fires when ids are left, no record is TRIGGERED, and the log has room or a terminal record. -/
theorem Exs.mustSkip_eq_false {x : Exs} : x.mustSkip = false ↔ x.idCounter ≠ 4294967295 ∧
    (∀ e ∈ x.log, e.state ≠ .triggered) ∧ (x.log.length < 64 ∨ ∃ e ∈ x.log, e.state.isTerminal = true) := by
  rw [← Exs.triggered_eq_none]
  show (decide (x.idCounter = 4294967295) || x.triggered.isSome ||
    (decide (64 ≤ x.log.length) && x.log.all (fun e => !e.state.isTerminal))) = false ↔ _
  simp [and_assoc, or_iff_not_imp_left]

theorem makeRoom_short {log : List Exposure} (h : log.length < 64) : makeRoom log = log := if_pos h

theorem makeRoom_full {log : List Exposure} (h : 64 ≤ log.length) :
    makeRoom log = log.eraseP (fun e => e.state.isTerminal) := if_neg (Nat.not_lt.2 h)

theorem makeRoom_sublist (log : List Exposure) : (makeRoom log).Sublist log := by
  unfold makeRoom
  split
  · exact List.Sublist.refl log
  · exact List.eraseP_sublist

/-- A log with room, or with a terminal record to remove, holds fewer than 64 records once room is made. -/
theorem length_makeRoom_lt {log : List Exposure} (bound : log.length ≤ 64)
    (room : log.length < 64 ∨ ∃ e ∈ log, e.state.isTerminal = true) : (makeRoom log).length < 64 := by
  by_cases short : log.length < 64
  · rwa [makeRoom_short short]
  · obtain ⟨e, mem, terminal⟩ := room.resolve_left short
    rw [makeRoom_full (Nat.not_lt.1 short), List.length_eraseP_of_mem mem terminal]
    omega

theorem State.triggerCause_skip {s : State} (h : s.exs.mustSkip = true) :
    s.triggerCause = { s with exs := s.exs.countSkip }.raiseAll evNoExposure := if_pos h

theorem State.triggerCause_fire {s : State} (h : s.exs.mustSkip = false) :
    s.triggerCause = { s with exs := s.exs.fire s.tb } := if_neg (by simp [h])

/-! ### What every operation keeps of the exposure log (R104 to R106) -/

/-- What every operation keeps of EXS while the part is powered: the count of ids issued is never set back, and the log keeps
its invariant. -/
structure KeepsLog (s t : State) : Prop where
  issued : s.exs.idCounter ≤ t.exs.idCounter
  inv : ExposureInv s → ExposureInv t

theorem KeepsLog.refl (s : State) : KeepsLog s s := ⟨Nat.le_refl _, id⟩

theorem KeepsLog.trans {s t u : State} (h : KeepsLog s t) (k : KeepsLog t u) : KeepsLog s u :=
  ⟨h.issued.trans k.issued, k.inv ∘ h.inv⟩

/-- An operation whose log is the old one, and which issues no id. -/
theorem KeepsLog.of_log {s t : State} (log : t.exs.log = s.exs.log) (ids : t.exs.idCounter = s.exs.idCounter) :
    KeepsLog s t := by
  refine ⟨ids.ge, fun inv => ?_⟩
  unfold ExposureInv
  rwa [log, ids]

theorem KeepsLog.same {s t : State} (h : t.exs = s.exs) : KeepsLog s t := .of_log (by rw [h]) (by rw [h])

/-- An operation that begins on a state with the same EXS. -/
theorem KeepsLog.after {s t u : State} (k : KeepsLog t u) (h : t.exs = s.exs) : KeepsLog s u := (KeepsLog.same h).trans k

theorem KeepsLog.settle {s t : State} (h : KeepsLog s t) : KeepsLog s t.settle := h.trans (.same (Kept.settle t).exs)

/-- Records change in place: no id changes and no record becomes TRIGGERED. -/
theorem KeepsLog.of_mapLog {s t : State} (n : Nat) (f : Exposure → Exposure) (log : t.exs.log = (s.exs.mapLog n f).log)
    (ids : t.exs.idCounter = s.exs.idCounter) (sameId : ∀ e, (f e).id = e.id)
    (notTriggered : ∀ e, (f e).state = .triggered → e.state = .triggered) : KeepsLog s t := by
  refine ⟨ids.ge, ?_⟩
  rintro ⟨bound, ascending, issued, stopped, single⟩
  have named : ∀ e : Exposure, (if e.id = n then f e else e).id = e.id := fun e => by split <;> simp [sameId]
  have triggered : ∀ e : Exposure, (if e.id = n then f e else e).state = .triggered → e.state = .triggered := fun e => by
    split
    · exact notTriggered e
    · exact id
  have log' : t.exs.log = s.exs.log.map (fun e => if e.id = n then f e else e) := log
  unfold ExposureInv
  rw [log', ids]
  refine ⟨by simpa using bound, ?_, ?_, stopped, ?_⟩
  · rw [List.map_map]
    have names : Exposure.id ∘ (fun e => if e.id = n then f e else e) = Exposure.id := funext named
    rwa [names]
  · simpa [named] using issued
  · rw [List.countP_map]
    refine Nat.le_trans (List.countP_mono_left fun e _ h => ?_) single
    exact decide_eq_true (triggered e (of_decide_eq_true h))

/-- The camera is fired: the new record takes the next id and the place that room is made for (R104, R106). -/
theorem KeepsLog.fire (s : State) (fires : s.exs.mustSkip = false) : KeepsLog s { s with exs := s.exs.fire s.tb } := by
  obtain ⟨left, none, room⟩ := Exs.mustSkip_eq_false.1 fires
  refine ⟨Nat.le_succ _, ?_⟩
  rintro ⟨bound, ascending, issued, stopped, -⟩
  have kept := makeRoom_sublist s.exs.log
  have short := length_makeRoom_lt bound room
  have issuedKept : ∀ e ∈ makeRoom s.exs.log, 1 ≤ e.id ∧ e.id ≤ s.exs.idCounter := fun e he => issued e (kept.subset he)
  have noneKept : (makeRoom s.exs.log).countP (fun e => decide (e.state = .triggered)) = 0 :=
    List.countP_eq_zero.2 fun e he => by simpa using none e (kept.subset he)
  refine ⟨?_, ?_, ?_, ?_, ?_⟩
  · simpa [Exs.fire] using short
  · simp only [Exs.fire, freshExposure, List.map_append, List.map_cons, List.map_nil, List.pairwise_append]
    refine ⟨ascending.sublist (kept.map _), List.pairwise_singleton _ _, ?_⟩
    simp only [List.mem_map, List.mem_singleton]
    rintro _ ⟨e, he, rfl⟩ _ rfl
    exact Nat.lt_succ_of_le (issuedKept e he).2
  · simp only [Exs.fire, List.mem_append, List.mem_singleton]
    rintro e (he | rfl)
    · exact ⟨(issuedKept e he).1, Nat.le_succ_of_le (issuedKept e he).2⟩
    · exact ⟨Nat.succ_pos _, Nat.le_refl _⟩
  · exact Nat.lt_of_le_of_ne stopped left
  · simp [Exs.fire, List.countP_append, noneKept, freshExposure]

theorem KeepsLog.triggerCause (s : State) : KeepsLog s s.triggerCause := by
  cases fires : s.exs.mustSkip with
  | true =>
    rw [State.triggerCause_skip fires]
    exact .of_log rfl rfl
  | false =>
    rw [State.triggerCause_fire fires]
    exact .fire s fires

theorem KeepsLog.foldl {α : Type} {f : State → α → State} (hf : ∀ s a, KeepsLog s (f s a)) (l : List α) (s : State) :
    KeepsLog s (l.foldl f s) := by
  induction l generalizing s with
  | nil => exact .refl s
  | cons a l ih => exact (hf s a).trans (ih _)

/-! ### Stations and the periodic counter (R107, R108) -/

theorem KeepsLog.reachStations (l : List Nat) (s : State) : KeepsLog s (State.reachStations l s) := by
  induction l generalizing s with
  | nil => exact .refl s
  | cons v rest ih =>
    have next : KeepsLog s { s with exs := { s.exs with nextStation := s.exs.nextStation + 1 } } := .of_log rfl rfl
    unfold State.reachStations
    split
    · exact (next.trans (.triggerCause _)).trans (ih _)
    · exact .refl s

theorem KeepsLog.countPeriodic (s : State) (dir : Dir) : KeepsLog s (s.countPeriodic dir) := by
  have due : KeepsLog s { s with exs := { s.exs with periodic := 0 } } := .of_log rfl rfl
  unfold State.countPeriodic
  split
  · split
    · exact (due.trans (.triggerCause _)).trans (.of_log rfl rfl)
    · exact .of_log rfl rfl
  · exact .of_log rfl rfl

theorem KeepsLog.exsTravel (s : State) (dir : Dir) : KeepsLog s (s.exsTravel dir) := by
  unfold State.exsTravel
  split
  · split
    · exact .refl s
    · split
      · exact .reachStations _ s
      · exact .refl s
    · exact .countPeriodic s dir
  all_goals exact .refl s

theorem KeepsLog.exsEnterRunning (s : State) : KeepsLog s s.exsEnterRunning := by
  have begun : KeepsLog s { s with exs := { s.exs with nextStation := 0, periodic := s.exs.setup.interval } } :=
    .of_log rfl rfl
  unfold State.exsEnterRunning
  simp only
  split
  · exact begun.trans (.reachStations _ _)
  all_goals exact begun

/-! ### The strobe, the deadlines and the loads of a record (R109 to R113, R115) -/

theorem KeepsLog.strobeRise (s : State) : KeepsLog s s.strobeRise := by
  unfold State.strobeRise
  split
  · exact .of_mapLog _ _ rfl rfl (fun _ => rfl) (fun _ => id)
  · exact .of_log rfl rfl

theorem KeepsLog.strobeFall (s : State) : KeepsLog s s.strobeFall := by
  unfold State.strobeFall
  split
  · exact .refl s
  · split
    · exact .of_log rfl rfl
    · exact .of_mapLog _ _ rfl rfl (fun _ => rfl) (fun _ => nofun)

theorem KeepsLog.strobeTimeout (s : State) : KeepsLog s s.strobeTimeout := by
  unfold State.strobeTimeout
  split
  · exact .refl s
  · split
    · exact .of_mapLog _ _ rfl rfl (fun _ => rfl) (fun _ => nofun)
    · exact .refl s

theorem KeepsLog.tileDeadline (s : State) (n : Nat) : KeepsLog s (s.tileDeadline n) := by
  unfold State.tileDeadline
  split
  · exact .refl s
  · split
    · exact .of_mapLog _ _ rfl rfl (fun _ => rfl) (fun _ => nofun)
    · exact .refl s

theorem KeepsLog.takeExposureDrop (s : State) (p : PortId) (tag : Tag) (exposure : BitVec 32) :
    KeepsLog s (s.takeExposureDrop p tag exposure) := by
  unfold State.takeExposureDrop
  split
  · exact .same rfl
  · split
    case h_3 =>
      apply KeepsLog.settle
      exact .of_mapLog _ _ rfl rfl (fun _ => rfl) (fun _ => nofun)
    all_goals exact .same rfl

theorem KeepsLog.placeTile (s : State) (p : PortId) (tag : Tag) (ops : TileOperands) (w : AngularWindow) :
    KeepsLog s (s.placeTile p tag ops w).1 := by
  unfold State.placeTile
  split
  · exact .same rfl
  · split
    · split
      · exact .same rfl
      · exact .of_mapLog _ _ rfl rfl (fun _ => rfl) (fun _ => nofun)
    · exact .same rfl

theorem KeepsLog.abortLoad (s : State) (k : Nat) : KeepsLog s (s.abortLoad k) := by
  unfold State.abortLoad
  split
  · exact .refl s
  · exact .of_mapLog _ _ rfl rfl (fun _ => rfl) (fun _ => nofun)

theorem KeepsLog.completeLoad (s : State) (k : Nat) : KeepsLog s (s.completeLoad k) := by
  have tiled (e : Exposure) : ({ e with state := .tiled, deadline := none, held := none } : Exposure).id = e.id := rfl
  unfold State.completeLoad
  split
  · exact .refl s
  · simp only
    split <;> exact .of_mapLog _ (fun e => { e with state := .tiled, deadline := none, held := none }) rfl rfl tiled
      (fun _ => nofun)

end Sys2Proof.Machine

namespace Sys2Proof.Machine

/-! ### Time, pulses and the scan's changes of state issue no exposure -/

theorem State.elapse_exs (s : State) (dt : Nat) : (s.elapse dt).exs = s.exs := by
  unfold State.elapse
  split
  · rfl
  · exact (State.wrapActions_wrapped _).exs

theorem State.wrap_exs (s : State) : s.wrap.exs = s.exs := (State.wrapActions_wrapped _).exs

theorem KeepsLog.timed {f : State → State} (hf : ∀ e, KeepsLog e (f e)) (s : State) (dt : Nat) :
    KeepsLog s (f (s.elapse dt)) := .after (hf _) (s.elapse_exs dt)

theorem State.closePulses_exs (s : State) (sel : PulseRec → Bool) : (s.closePulses sel).exs = s.exs :=
  (PulsesClosed.foldl _ s).exs

theorem State.takeEmit_exs (s : State) (id : BitVec 16) (t : Time) : (s.takeEmit id t).exs = s.exs := by
  unfold State.takeEmit
  split
  · unfold State.testEmit
    split
    · rfl
    · split
      · exact s.closePulses_exs _
      · exact State.closePulses_exs _ _
      · rfl
      · exact State.closePulses_exs _ _
  all_goals rfl

theorem State.takeEcho_exs (s : State) (x : EchoRec) : (s.takeEcho x).exs = s.exs := by
  have processed : (s.processEcho x).exs = s.exs := by
    unfold State.processEcho
    simp only
    split <;> rfl
  unfold State.takeEcho
  split
  · exact processed
  · exact processed
  all_goals rfl

theorem State.enterFault_exs (s : State) (c : FaultCause) : (s.enterFault c).exs = s.exs := (s.enterFault_discards c).2.2

/-- DONE replies change ports alone. -/
theorem State.stopReplies_exs (l : List PortTag) (s : State) : (l.foldl State.stopDone s).exs = s.exs := by
  induction l generalizing s with
  | nil => rfl
  | cons o l ih => exact ih (s.stopDone o)

theorem State.completeDrain_exs (s : State) : s.completeDrain.exs = s.exs := by
  have drained : s.drainPulses.exs = s.exs :=
    (LnbKept.drainMark ((s.closePulses (fun _ => true)).emptyHistory)).exs.trans (s.closePulses_exs _)
  exact (State.stopReplies_exs s.scn.stopReplies _).trans drained

/-- Entry to RUNNING ends as EXS's own entry does (R50, R100), on a state with the same EXS and time and a travel of 0. -/
theorem State.enterRunning_eq (s : State) (t : Time) :
    ∃ u : State, s.enterRunning t = u.exsEnterRunning ∧ u.exs = s.exs ∧ u.tb = s.tb ∧ u.ang.travel = 0 := by
  refine ⟨_, rfl, ?_⟩
  unfold State.startDone
  split <;> exact ⟨rfl, rfl, rfl⟩

theorem KeepsLog.enterRunning (s : State) (t : Time) : KeepsLog s (s.enterRunning t) := by
  obtain ⟨u, entered, exs, -⟩ := s.enterRunning_eq t
  rw [entered]
  exact .after (.exsEnterRunning u) exs

/-! ### Reports of ANG and ECA (R48 to R54) -/

theorem KeepsLog.revolutionReport (s : State) (v : Verdict) (t : Time) : KeepsLog s (s.revolutionReport v t) := by
  have armed : KeepsLog s (s.armedReport v t) := by
    unfold State.armedReport
    split
    · exact .same rfl
    · exact .same rfl
    · split
      · exact .same rfl
      · split
        · exact .enterRunning s t
        · exact .same rfl
  unfold State.revolutionReport
  split
  · exact armed
  · split
    · exact .same (s.enterFault_exs _)
    · exact .refl s
    · exact .refl s
  all_goals exact .refl s

theorem State.bandLoss_exs (s : State) (c : BandLossCause) : (s.bandLoss c).exs = s.exs := by
  unfold State.bandLoss State.bandLossReport
  split
  · rfl
  · exact State.enterFault_exs _ _
  all_goals rfl

theorem State.linkReport_exs (s : State) : s.linkReport.exs = s.exs := by
  unfold State.linkReport
  split
  · exact s.enterFault_exs _
  · exact s.enterFault_exs _
  all_goals rfl

theorem State.recordReport_exs (s : State) (code : Byte) : (s.recordReport code).exs = s.exs := by
  unfold State.recordReport
  split
  · exact s.enterFault_exs _
  all_goals rfl

theorem State.spanTest_exs (s : State) : s.spanTest.exs = s.exs := by
  unfold State.spanTest
  split
  · split <;> rfl
  all_goals rfl

theorem State.countMirror_exs (s : State) (dir : Dir) (active : Bool) : (s.countMirror dir active).exs = s.exs :=
  (State.raiseIndexFault_kept _ _).1.exs

theorem State.countAzimuth_exs (s : State) (dir : Dir) (active : Bool) : (s.countAzimuth dir active).exs = s.exs :=
  (State.raiseIndexFault_kept _ _).1.exs

theorem KeepsLog.mirrorEdge (s : State) (dir : Dir) (active : Bool) : KeepsLog s (s.mirrorEdge dir active) := by
  refine .after (t := s.countMirror dir active) ?_ (s.countMirror_exs dir active)
  cases dir with
  | backward => exact .same (State.bandLoss_exs _ .reverse)
  | forward =>
    rw [State.mirrorEdge_forward]
    split
    · exact .after (.revolutionReport _ _ _) rfl
    · exact .refl _

theorem KeepsLog.azimuthEdge (s : State) (dir : Dir) (active : Bool) : KeepsLog s (s.azimuthEdge dir active) :=
  .after (.exsTravel _ dir) ((State.spanTest_exs _).trans (s.countAzimuth_exs dir active))

theorem KeepsLog.takeEdge (s : State) (axis : Axis) (kind : EdgeKind) (active : Bool) :
    KeepsLog s (s.takeEdge axis kind active) := by
  unfold State.takeEdge
  split
  · exact .mirrorEdge s _ active
  · exact .mirrorEdge s _ active
  · exact .azimuthEdge s _ active
  · exact .azimuthEdge s _ active
  · unfold State.seeIndex
    split <;> exact .same rfl

theorem KeepsLog.stallExpiry (s : State) : KeepsLog s s.stallExpiry := by
  unfold State.stallExpiry
  split
  · apply KeepsLog.settle
    exact .after (.same (State.bandLoss_exs _ _)) rfl
  · exact .refl s

theorem KeepsLog.rangingUp (s : State) : KeepsLog s s.rangingUp := by
  unfold State.rangingUp
  split <;> exact .same rfl

theorem KeepsLog.rangingLoss (s : State) : KeepsLog s s.rangingLoss := by
  unfold State.rangingLoss
  split
  · exact .refl s
  · apply KeepsLog.settle
    exact .after (.same (State.linkReport_exs _)) rfl

theorem KeepsLog.onRecord {k : State → State} (hk : ∀ s, KeepsLog s (k s)) (s : State) : KeepsLog s (s.onRecord k) := by
  unfold State.onRecord
  split
  · exact .refl s
  · exact hk s

theorem KeepsLog.takeFaultRecord (s : State) (code : Byte) : KeepsLog s (s.takeFaultRecord code) :=
  .after (.same (State.recordReport_exs _ code)) rfl

theorem KeepsLog.armedTimer (s : State) : KeepsLog s
    (if decide (s.scn.state = .armed) && timerDue s.scn.armed s.tb then (s.enterFault .mirrorBand).settle else s) := by
  split
  · exact KeepsLog.settle (.same (s.enterFault_exs _))
  · exact .refl s

theorem KeepsLog.drainTimer (s : State) : KeepsLog s
    (if decide (s.scn.state = .draining) && timerDue s.scn.drain s.tb then s.completeDrain.settle else s) := by
  split
  · exact KeepsLog.settle (.same s.completeDrain_exs)
  · exact .refl s

theorem KeepsLog.takeAbandonment (s : State) : KeepsLog s s.takeAbandonment := by
  unfold State.takeAbandonment
  split <;> exact .same rfl

/-! ### Command frames and their data -/

theorem KeepsLog.refuse (s : State) (p : PortId) (tag : Tag) (c : SenseClass) (code : Nat) (info : Option Nat) :
    KeepsLog s (s.refuse p tag c code info) := .same rfl

theorem KeepsLog.tagAndRole {body : State → State} (hb : ∀ s, KeepsLog s (body s)) (p : PortId) (tag : Tag)
    (allowed : Role → Bool) (s : State) : KeepsLog s (tagAndRole p tag allowed body s) := by
  unfold Machine.tagAndRole
  split
  · exact .same rfl
  · split
    · exact hb s
    · exact .same rfl

theorem KeepsLog.client {body : State → State} (hb : ∀ s, KeepsLog s (body s)) (p : PortId) (tag : Tag)
    (allowed : Role → Bool) (s : State) : KeepsLog s (client p tag allowed body s) := by
  unfold Machine.client
  split
  · exact .refl s
  · exact .after (.tagAndRole hb p tag allowed _) rfl

theorem KeepsLog.clientKeepSense {body : State → State} (hb : ∀ s, KeepsLog s (body s)) (p : PortId) (tag : Tag)
    (s : State) : KeepsLog s (clientKeepSense p tag body s) := by
  unfold Machine.clientKeepSense
  split
  · exact .refl s
  · exact .tagAndRole hb p tag _ s

theorem KeepsLog.clientSkipTag {body : State → State} (hb : ∀ s, KeepsLog s (body s)) (p : PortId) (s : State) :
    KeepsLog s (clientSkipTag p body s) := by
  unfold Machine.clientSkipTag
  split
  · exact .refl s
  · exact .after (hb _) rfl

theorem KeepsLog.inIdle {k : State → State} (hk : ∀ s, KeepsLog s (k s)) (s : State) (p : PortId) (tag : Tag) :
    KeepsLog s (s.inIdle p tag k) := by
  by_cases idle : s.scn.state = .idle
  · rw [State.inIdle_idle idle]
    exact hk s
  · rw [State.inIdle_other idle]
    exact .same rfl

theorem KeepsLog.idleAtLastByte {k : State → State} (hk : ∀ s, KeepsLog s (k s)) (s : State) (p : PortId) (tag : Tag) :
    KeepsLog s (s.idleAtLastByte p tag k) := by
  by_cases idle : s.scn.state = .idle
  · rw [State.idleAtLastByte_idle idle]
    exact hk s
  · rw [State.idleAtLastByte_other idle]
    exact .same rfl

theorem KeepsLog.countTest {k : State → State} (hk : ∀ s, KeepsLog s (k s)) (s : State) (p : PortId) (tag : Tag)
    (count : Byte) (largest operand : Nat) : KeepsLog s (s.countTest p tag count largest operand k) := by
  unfold State.countTest
  split
  · exact .same rfl
  · exact hk s

theorem KeepsLog.gatherInIdle (s : State) (p : PortId) (tag : Tag) (like : Job → Bool) (j : Job) :
    KeepsLog s (s.inIdle p tag (fun s => s.gatherAlone p tag like j)) := by
  refine .inIdle (fun s => ?_) s p tag
  unfold State.gatherAlone
  split <;> exact .same rfl

theorem KeepsLog.deliver (s : State) (p : PortId) (tag : Tag) (code : Byte) (ps : List (List Byte)) :
    KeepsLog s (s.deliver p tag code ps) := by
  unfold State.deliver
  split <;> exact .same rfl

theorem KeepsLog.pump (s : State) (p : PortId) (tag : Tag) : KeepsLog s (s.pump p tag) := by
  unfold State.pump
  split
  · split
    · exact .deliver s p tag _ _
    · exact .refl s
  · exact .refl s

/-! ### Scan commands -/

theorem KeepsLog.takeScanStart (s : State) (p : PortId) (tag : Tag) : KeepsLog s (s.takeScanStart p tag) := by
  refine .inIdle (fun s => ?_) s p tag
  exact .same rfl

theorem KeepsLog.takeScanStop (s : State) (p : PortId) (tag : Tag) : KeepsLog s (s.takeScanStop p tag) := by
  unfold State.takeScanStop
  split
  · exact .same rfl
  · unfold State.abortStartReply
    split <;> exact .same rfl
  all_goals exact .same rfl

theorem KeepsLog.takeFaultClear (s : State) (p : PortId) (tag : Tag) : KeepsLog s (s.takeFaultClear p tag) := by
  unfold State.takeFaultClear
  split <;> exact .same rfl

theorem ExposureInv.of_empty {s : State} (log : s.exs.log = []) (ids : s.exs.idCounter ≤ 4294967295) : ExposureInv s := by
  simp [ExposureInv, log, ids]

/-- RESTART empties the log and keeps the count of ids issued (R100, R105). -/
theorem KeepsLog.takeRestart (s : State) (p : PortId) (tag : Tag) : KeepsLog s (s.takeRestart p tag) := by
  have ended (u : State) (q : PortId) (t : Tag) : KeepsLog u (State.restartTag q u t) := by
    unfold State.restartTag
    split <;> exact .same rfl
  have cleared (u : State) : KeepsLog u ((u.restartBlocks.raiseAll evState).answer p tag .done) :=
    ⟨Nat.le_refl _, fun ⟨_, _, _, stopped, _⟩ => .of_empty rfl stopped⟩
  exact (KeepsLog.foldl (fun u q => .foldl (fun v t => ended v q t) allTags u) allPorts s).trans (cleared _)

/-! ### Data blocks -/

theorem KeepsLog.completeScanSetup (s : State) (p : PortId) (tag : Tag) (block : List Byte) :
    KeepsLog s (s.completeScanSetup p tag block) := by
  refine .idleAtLastByte (fun s => ?_) s p tag
  split
  · exact .same rfl
  · unfold State.installScanParams
    simp only
    split
    · exact .same rfl
    · exact .after (.same (Kept.resizeRing _).exs) rfl

theorem KeepsLog.completeMirrorCalibrate (s : State) (p : PortId) (tag : Tag) (data : List Byte) :
    KeepsLog s (s.completeMirrorCalibrate p tag data) := by
  refine .idleAtLastByte (fun s => ?_) s p tag
  exact .same rfl

theorem KeepsLog.completeMaskLoad (s : State) (p : PortId) (tag : Tag) (n : Nat) (data : List Byte) :
    KeepsLog s (s.completeMaskLoad p tag n data) := by
  refine .idleAtLastByte (fun s => ?_) s p tag
  simp only
  split <;> exact .same rfl

theorem KeepsLog.completeCameraSetup (s : State) (p : PortId) (tag : Tag) (block : List Byte) :
    KeepsLog s (s.completeCameraSetup p tag block) := by
  refine .idleAtLastByte (fun s => ?_) s p tag
  split <;> exact .of_log rfl rfl

theorem KeepsLog.completeStationLoad (s : State) (p : PortId) (tag : Tag) (n : Nat) (data : List Byte) :
    KeepsLog s (s.completeStationLoad p tag n data) := by
  refine .idleAtLastByte (fun s => ?_) s p tag
  simp only
  split <;> exact .of_log rfl rfl

theorem KeepsLog.takeCells (s : State) (k : Nat) (bytes : List Byte) : KeepsLog s (s.takeCells k bytes) := by
  unfold State.takeCells
  split <;> exact .same rfl

theorem KeepsLog.gatherDescriptor (s : State) (p : PortId) (tag : Tag) (ops : TileOperands) (bytes : List Byte) :
    KeepsLog s (s.gatherDescriptor p tag ops bytes) := by
  have placed := KeepsLog.placeTile s p tag ops (descriptorOf bytes)
  unfold State.gatherDescriptor State.completeDescriptor
  simp only
  split
  · exact .same rfl
  · split
    · exact .same rfl
    · split
      · rename_i s1 k h
        rw [h] at placed
        exact placed.trans (.takeCells s1 k _)
      · rename_i s1 h
        rw [h] at placed
        exact placed

theorem KeepsLog.gather {complete : State → List Byte → State} (hc : ∀ s x, KeepsLog s (complete s x)) (s : State)
    (p : PortId) (tag : Tag) (need : Nat) (bytes : List Byte) (mk : List Byte → Job) :
    KeepsLog s (s.gather p tag need bytes mk complete) := by
  unfold State.gather
  split
  · exact .same rfl
  · exact hc s _

theorem KeepsLog.takeData (s : State) (p : PortId) (tag : Tag) (payload : List Byte) :
    KeepsLog s (s.takeData p tag payload) := by
  have stray : KeepsLog s (s.stray p) := .same rfl
  unfold State.takeData
  split
  · exact stray
  · split
    · exact .gather (fun s x => .completeMirrorCalibrate s p tag x) s p tag _ _ _
    · exact .gather (fun s x => .completeScanSetup s p tag x) s p tag _ _ _
    · exact .gather (fun s x => .completeMaskLoad s p tag _ x) s p tag _ _ _
    · exact .gather (fun s x => .completeCameraSetup s p tag x) s p tag _ _ _
    · exact .gather (fun s x => .completeStationLoad s p tag _ x) s p tag _ _ _
    · exact .gatherDescriptor s p tag _ _
    · unfold State.cellFrame
      split
      · exact stray
      · split
        · exact .takeCells s _ payload
        · exact stray
    all_goals exact stray

theorem KeepsLog.dataFrame (s : State) (p : PortId) (tag : Tag) (payload : List Byte) :
    KeepsLog s (s.dataFrame p tag payload) := by
  unfold State.dataFrame
  split
  · exact .refl s
  · split
    · exact .same rfl
    · exact (KeepsLog.takeData s p tag payload).settle

/-! ### Commands that end early, client links, the transmitter -/

theorem KeepsLog.undo (s : State) (p : PortId) (tag : Tag) (j : Job) : KeepsLog s (s.undo p tag j) := by
  cases j
  case tileCells k => exact .abortLoad s k
  all_goals exact .same rfl

theorem KeepsLog.takeTagAbort (s : State) (p : PortId) (tag : Tag) (target : Byte) :
    KeepsLog s (s.takeTagAbort p tag target) := by
  unfold State.takeTagAbort
  split
  · exact .same rfl
  · rename_i t _
    have aborted : KeepsLog s (s.abortTag p t) := by
      unfold State.abortTag
      split
      · exact .refl s
      · exact (KeepsLog.undo s p t _).trans (.same rfl)
    apply KeepsLog.settle
    exact aborted.trans (.same rfl)

theorem KeepsLog.portReset (s : State) (p : PortId) : KeepsLog s (s.portReset p) := by
  have dropped (u : State) (t : Tag) : KeepsLog u (State.dropTag p u t) := by
    unfold State.dropTag
    split
    · exact .refl u
    · exact (KeepsLog.undo u p t _).trans (.same rfl)
  have closed (u : State) : (((u.modPort p Port.cleared).closeStream p false).modAtn p (fun _ => atnPowerOn)).exs = u.exs :=
    (Kept.closeStream _ p false).exs
  exact (KeepsLog.foldl dropped allTags s).trans (.same (closed _))

theorem KeepsLog.resetPort (s : State) (p : PortId) (tag : Tag) :
    KeepsLog s ((s.portReset p).answer p tag .done).settle := by
  apply KeepsLog.settle
  exact (KeepsLog.portReset s p).trans (.same rfl)

theorem KeepsLog.clientUp (s : State) (p : PortId) : KeepsLog s (s.clientUp p) := by
  unfold State.clientUp
  split <;> exact .same rfl

theorem KeepsLog.clientLoss (s : State) (p : PortId) : KeepsLog s (s.clientLoss p) := by
  unfold State.clientLoss
  split
  · exact .refl s
  · apply KeepsLog.settle
    exact .after (.portReset _ p) rfl

theorem KeepsLog.badFrame (s : State) (p : PortId) : KeepsLog s (s.badFrame p) := by
  unfold State.badFrame
  split <;> exact .same rfl

theorem KeepsLog.frameSent (s : State) (p : PortId) : KeepsLog s (s.frameSent p) := by
  unfold State.frameSent
  split
  · exact .refl s
  · apply KeepsLog.settle
    exact .after (.foldl (fun s t => .pump s p t) allTags _) rfl

/-! ### Commands of the other blocks -/

theorem KeepsLog.takeMaskLoad (s : State) (p : PortId) (tag : Tag) (empty : Bool) (count : Byte) :
    KeepsLog s (s.takeMaskLoad p tag empty count) := by
  unfold State.takeMaskLoad
  split
  · refine .inIdle (fun s => ?_) s p tag
    split <;> exact .same rfl
  · exact .countTest (fun s => .gatherInIdle s p tag _ _) s p tag _ _ _

theorem KeepsLog.takeStationLoad (s : State) (p : PortId) (tag : Tag) (empty : Bool) (count : Byte) :
    KeepsLog s (s.takeStationLoad p tag empty count) := by
  unfold State.takeStationLoad
  split
  · refine .inIdle (fun s => ?_) s p tag
    split <;> exact .of_log rfl rfl
  · exact .countTest (fun s => .gatherInIdle s p tag _ _) s p tag _ _ _

theorem KeepsLog.takeTileLoad (s : State) (p : PortId) (tag : Tag) (exposure : BitVec 32) (priority w h : Byte) :
    KeepsLog s (s.takeTileLoad p tag exposure priority w h) := by
  unfold State.takeTileLoad
  split <;> exact .same rfl

theorem KeepsLog.takeTileRetire (s : State) (p : PortId) (tag : Tag) (slot : Byte) (exposure : BitVec 32) :
    KeepsLog s (s.takeTileRetire p tag slot exposure) := by
  have retired (t : TileSlot) : KeepsLog s (s.retireTile p tag t) := by
    unfold State.retireTile
    split <;> exact .same rfl
  unfold State.takeTileRetire
  split
  · exact .same rfl
  · split
    · exact .same rfl
    · split
      · exact .same rfl
      · split <;> exact .same rfl
      · split
        · exact retired _
        · exact .same rfl

theorem KeepsLog.takeStreamOpen (s : State) (p : PortId) (tag : Tag) (mode start : Byte) (line : BitVec 32) :
    KeepsLog s (s.takeStreamOpen p tag mode start line) := by
  unfold State.takeStreamOpen
  split
  · exact .same rfl
  · split
    · exact .same rfl
    · split
      · exact .same rfl
      · unfold State.openStream
        simp only
        split <;> exact .same rfl

theorem KeepsLog.takeStreamClose (s : State) (p : PortId) (tag : Tag) : KeepsLog s (s.takeStreamClose p tag) := by
  apply KeepsLog.settle
  exact .same (Kept.closeStream s p true).exs

theorem KeepsLog.takeLinesRead (s : State) (p : PortId) (tag : Tag) (count : Byte) :
    KeepsLog s (s.takeLinesRead p tag count) := by
  have started (u : State) (n : Nat) : (u.startRead p tag n).exs = u.exs := by
    unfold State.startRead
    simp only
    split
    · exact (Kept.beginLine _ p _ _).exs
    · rfl
  refine .countTest (fun s => ?_) s p tag _ _ _
  split
  · split
    · exact .same rfl
    · exact KeepsLog.settle (.same (started s _))
  · exact .same rfl

theorem KeepsLog.takeLinesRelease (s : State) (p : PortId) (tag : Tag) (n : BitVec 32) :
    KeepsLog s (s.takeLinesRelease p tag n) := by
  unfold State.takeLinesRelease
  split <;> exact .same rfl

theorem KeepsLog.takeLinesCheck (s : State) (p : PortId) (tag : Tag) : KeepsLog s (s.takeLinesCheck p tag) :=
  .after (.deliver _ p tag _ _) rfl

theorem KeepsLog.takeLineFind (s : State) (p : PortId) (tag : Tag) (start : BitVec 32) (criterion : Byte)
    (azimuth : Angle) (mask value : Byte) (invert : Bool) :
    KeepsLog s (s.takeLineFind p tag start criterion azimuth mask value invert) := by
  unfold State.takeLineFind
  split <;> exact .same rfl

theorem KeepsLog.takeEventSetup (s : State) (p : PortId) (tag : Tag) (enable : BitVec 16) (mode first : Byte) :
    KeepsLog s (s.takeEventSetup p tag enable mode first) := by
  unfold State.takeEventSetup
  split
  · exact .same rfl
  · split
    · exact .same rfl
    · split <;> exact .same rfl

theorem KeepsLog.takeEventNext (s : State) (p : PortId) (tag : Tag) : KeepsLog s (s.takeEventNext p tag) := by
  have taken : KeepsLog s (s.modAtn p (fun _ => (s.atn.get p).next.1)) := .same rfl
  unfold State.takeEventNext
  exact taken.trans (.deliver _ p tag _ _)

theorem KeepsLog.takeEventFreeze (s : State) (p : PortId) (tag : Tag) (onOff : Byte) :
    KeepsLog s (s.takeEventFreeze p tag onOff) := by
  unfold State.takeEventFreeze
  split <;> exact .same rfl

theorem KeepsLog.takeCountersRead (s : State) (p : PortId) (tag : Tag) (clear : Bool) :
    KeepsLog s (s.takeCountersRead p tag clear) := by
  refine .trans ?_ (.deliver _ p tag _ _)
  split
  · exact .of_log rfl rfl
  · exact .refl s

/-! ### Transfers and engines -/

theorem KeepsLog.endLoaderTransfer (s : State) (k work : Nat) : KeepsLog s (s.endLoaderTransfer k work) := by
  unfold State.endLoaderTransfer
  split
  · exact .refl s
  · split
    · exact .refl s
    · simp only
      split
      · exact .after (.completeLoad _ k) rfl
      · exact .same rfl

theorem KeepsLog.endTransferOf (s : State) (o : TransferOwner) (work : Nat) : KeepsLog s (s.endTransferOf o work) := by
  cases o with
  | tileLoader k => exact .endLoaderTransfer s k work
  | ringWriter => exact .same (Kept.endTransferOf (by simp) s work).exs
  | clr => exact .same (Kept.endTransferOf (by simp) s work).exs
  | reader p => exact .same (Kept.endTransferOf (by simp) s work).exs

theorem KeepsLog.endTransfer (s : State) (work : Nat) : KeepsLog s (s.endTransfer work) := by
  unfold State.endTransfer
  split
  · exact .refl s
  · apply KeepsLog.settle
    split
    · exact .after (.endTransferOf _ _ work) rfl
    · exact .same rfl

theorem KeepsLog.firstPassEnd (s : State) : KeepsLog s s.firstPassEnd := by
  unfold State.firstPassEnd
  split
  · exact .endTransfer s 0
  · exact .refl s

theorem KeepsLog.backfillStepEnd (s : State) : KeepsLog s s.backfillStepEnd := by
  unfold State.backfillStepEnd
  split
  · exact .endTransfer s 0
  · exact .refl s

theorem KeepsLog.tileLoadComplete (s : State) : KeepsLog s s.tileLoadComplete := by
  unfold State.tileLoadComplete
  split
  · exact .refl s
  · exact .endTransfer s _

theorem KeepsLog.lineDeliveryComplete (s : State) (p : PortId) : KeepsLog s (s.lineDeliveryComplete p) := by
  unfold State.lineDeliveryComplete
  split
  · exact .refl s
  · exact KeepsLog.settle (.same (Kept.completeDelivery s p _ _).exs)

/-! ### Every command, every step -/

/-- A command answers the state its meaning gives. -/
theorem KeepsLog.of_next {s u t : State} (k : KeepsLog s u)
    (h : (Host.Outcome.next u : Host.Outcome State Fault Refusal) = .next t) : KeepsLog s t := by
  cases h
  exact k

theorem exec_keepsLog (c : Instr) (powered : ∀ straps, c ≠ .powerOn straps) (s t : State) (h : exec c s = .next t) :
    KeepsLog s t := by
  cases c with
  | powerOn straps => exact absurd rfl (powered straps)
  | tbWrap => exact (KeepsLog.same s.wrap_exs).of_next h
  | quadratureEdge dt axis kind active =>
    exact (KeepsLog.timed (fun e => (KeepsLog.takeEdge e axis kind active).settle) s dt).of_next h
  | indexInactive dt axis => exact (KeepsLog.timed (fun e => .same (State.setAng_exs e _)) s dt).of_next h
  | stallTimerExpiry dt => exact (KeepsLog.timed .stallExpiry s dt).of_next h
  | rangingLinkUp dt => exact (KeepsLog.timed .rangingUp s dt).of_next h
  | rangingLinkLoss dt => exact (KeepsLog.timed .rangingLoss s dt).of_next h
  | emit dt id time =>
    exact (KeepsLog.timed (.onRecord (fun e => KeepsLog.settle (.same (e.takeEmit_exs id time)))) s dt).of_next h
  | echo dt reference delay amplitude width saturated =>
    exact (KeepsLog.timed (.onRecord (fun e => .same (e.takeEcho_exs ⟨reference, delay, amplitude, width, saturated⟩)))
      s dt).of_next h
  | faultRecord dt code =>
    exact (KeepsLog.timed (.onRecord (fun e => (KeepsLog.takeFaultRecord e code).settle)) s dt).of_next h
  | armedTimerExpiry dt => exact (KeepsLog.timed .armedTimer s dt).of_next h
  | drainTimerExpiry dt => exact (KeepsLog.timed .drainTimer s dt).of_next h
  | abandonmentReport dt => exact (KeepsLog.timed .takeAbandonment s dt).of_next h
  | dramTransferEnd dt work => exact (KeepsLog.timed (.endTransfer · work) s dt).of_next h
  | firstPassEnd dt => exact (KeepsLog.timed .firstPassEnd s dt).of_next h
  | backfillStepEnd dt => exact (KeepsLog.timed .backfillStepEnd s dt).of_next h
  | strobeRise dt => exact (KeepsLog.timed .strobeRise s dt).of_next h
  | strobeFall dt => exact (KeepsLog.timed .strobeFall s dt).of_next h
  | strobeTimeoutExpiry dt => exact (KeepsLog.timed .strobeTimeout s dt).of_next h
  | tileDeadlineExpiry dt exposure =>
    exact (KeepsLog.timed (fun e => (KeepsLog.tileDeadline e exposure.toNat).settle) s dt).of_next h
  | tileLoadComplete dt => exact (KeepsLog.timed .tileLoadComplete s dt).of_next h
  | lineDeliveryComplete dt p => exact (KeepsLog.timed (.lineDeliveryComplete · p) s dt).of_next h
  | clientLinkUp dt p => exact (KeepsLog.timed (.clientUp · p) s dt).of_next h
  | clientLinkLoss dt p => exact (KeepsLog.timed (.clientLoss · p) s dt).of_next h
  | badFrame dt p => exact (KeepsLog.timed (.badFrame · p) s dt).of_next h
  | dataOut dt p tag payload => exact (KeepsLog.timed (.dataFrame · p tag payload) s dt).of_next h
  | frameTransmitted dt p => exact (KeepsLog.timed (.frameSent · p) s dt).of_next h
  | unknownCommand dt p tag code =>
    exact (KeepsLog.timed (.client (.refuse · p tag .arg 0 _) p tag everyRole) s dt).of_next h
  | identify dt p tag => exact (KeepsLog.timed (.client (.deliver · p tag _ _) p tag everyRole) s dt).of_next h
  | statusRead dt p tag =>
    exact (KeepsLog.timed (.client (fun e => .deliver e p tag _ _) p tag everyRole) s dt).of_next h
  | countersRead dt p tag clear =>
    exact (KeepsLog.timed (.client (.takeCountersRead · p tag clear) p tag everyRole) s dt).of_next h
  | senseRead dt p tag =>
    exact (KeepsLog.timed (.clientKeepSense (fun e => .deliver e p tag _ _) p tag) s dt).of_next h
  | tagAbort dt p tag target =>
    exact (KeepsLog.timed (.clientSkipTag (.takeTagAbort · p tag target) p) s dt).of_next h
  | portReset dt p tag => exact (KeepsLog.timed (.clientSkipTag (.resetPort · p tag) p) s dt).of_next h
  | eventSetup dt p tag enable mode first =>
    exact (KeepsLog.timed (.client (.takeEventSetup · p tag enable mode first) p tag everyRole) s dt).of_next h
  | eventNext dt p tag => exact (KeepsLog.timed (.client (.takeEventNext · p tag) p tag everyRole) s dt).of_next h
  | eventFreeze dt p tag onOff =>
    exact (KeepsLog.timed (.client (.takeEventFreeze · p tag onOff) p tag everyRole) s dt).of_next h
  | scanSetup dt p tag =>
    exact (KeepsLog.timed (.client (.gatherInIdle · p tag _ _) p tag onlyControl) s dt).of_next h
  | scanStart dt p tag => exact (KeepsLog.timed (.client (.takeScanStart · p tag) p tag onlyControl) s dt).of_next h
  | scanStop dt p tag => exact (KeepsLog.timed (.client (.takeScanStop · p tag) p tag onlyControl) s dt).of_next h
  | faultClear dt p tag => exact (KeepsLog.timed (.client (.takeFaultClear · p tag) p tag onlyControl) s dt).of_next h
  | restart dt p tag => exact (KeepsLog.timed (.client (.takeRestart · p tag) p tag onlyControl) s dt).of_next h
  | mirrorCalibrate dt p tag =>
    exact (KeepsLog.timed (.client (.gatherInIdle · p tag _ _) p tag onlyControl) s dt).of_next h
  | maskLoad dt p tag empty count =>
    exact (KeepsLog.timed (.client (.takeMaskLoad · p tag empty count) p tag onlyControl) s dt).of_next h
  | cameraSetup dt p tag =>
    exact (KeepsLog.timed (.client (.gatherInIdle · p tag _ _) p tag imagingOrControl) s dt).of_next h
  | stationLoad dt p tag empty count =>
    exact (KeepsLog.timed (.client (.takeStationLoad · p tag empty count) p tag onlyImaging) s dt).of_next h
  | exposuresRead dt p tag after count =>
    exact (KeepsLog.timed (.client (fun e => .countTest (fun e => .deliver e p tag _ _) e p tag _ _ _) p tag everyRole)
      s dt).of_next h
  | exposureDrop dt p tag exposure =>
    exact (KeepsLog.timed (.client (.takeExposureDrop · p tag exposure) p tag onlyImaging) s dt).of_next h
  | tileLoad dt p tag exposure priority w hh =>
    exact (KeepsLog.timed (.client (.takeTileLoad · p tag exposure priority w hh) p tag onlyImaging) s dt).of_next h
  | tileRetire dt p tag slot exposure =>
    exact (KeepsLog.timed (.client (.takeTileRetire · p tag slot exposure) p tag onlyImaging) s dt).of_next h
  | tilesList dt p tag =>
    exact (KeepsLog.timed (.client (fun e => .deliver e p tag _ _) p tag everyRole) s dt).of_next h
  | streamOpen dt p tag mode start startLine =>
    exact (KeepsLog.timed (.client (.takeStreamOpen · p tag mode start startLine) p tag everyRole) s dt).of_next h
  | streamClose dt p tag => exact (KeepsLog.timed (.client (.takeStreamClose · p tag) p tag everyRole) s dt).of_next h
  | linesRead dt p tag count =>
    exact (KeepsLog.timed (.client (.takeLinesRead · p tag count) p tag everyRole) s dt).of_next h
  | linesRelease dt p tag n =>
    exact (KeepsLog.timed (.client (.takeLinesRelease · p tag n) p tag everyRole) s dt).of_next h
  | linesCheck dt p tag => exact (KeepsLog.timed (.client (.takeLinesCheck · p tag) p tag everyRole) s dt).of_next h
  | lineFind dt p tag startLine criterion azimuth mask value invert =>
    exact (KeepsLog.timed (.client (.takeLineFind · p tag startLine criterion azimuth mask value invert) p tag everyRole)
      s dt).of_next h

theorem step_keepsLog (s t : State) (powered : ∀ straps rest, s.pending ≠ .powerOn straps :: rest)
    (h : step s = .next t) : KeepsLog s t := by
  unfold step at h
  split at h
  · exact (KeepsLog.same (s.elapse_exs 1)).of_next h
  · rename_i c rest queue
    have none : ∀ straps, c ≠ .powerOn straps := fun straps hc => powered straps rest (hc ▸ queue)
    exact .after (exec_keepsLog c none _ t h) rfl

/-- At power-on the log is empty and no id has been issued (R60, R105). -/
theorem ExposureInv.powerOn (roles : Quad Role) (queue : List Instr) : ExposureInv (powerOnState roles queue) :=
  .of_empty rfl (Nat.zero_le 4294967295)

/-- Settles O55: records change in place (`KeepsLog.of_mapLog`), a trigger cause adds one (`KeepsLog.fire`), RESTART and
POWER_ON empty the log, and no other operation touches it. -/
theorem exposureInvariantKept : Obligations.ExposureInvariantKept := by
  intro s t inv h
  by_cases powered : ∀ straps rest, s.pending ≠ .powerOn straps :: rest
  · exact (step_keepsLog s t powered h).inv inv
  · simp only [not_forall, not_not] at powered
    obtain ⟨straps, rest, queue⟩ := powered
    have reset : step s = .next (powerOnState (straps.map roleOfStraps) rest) := by
      unfold step
      rw [queue]
      rfl
    cases reset.symm.trans h
    exact .powerOn _ _

end Sys2Proof.Machine

namespace Sys2Proof.Machine

/-! ### One record of the log (R104) -/

theorem Exs.triggered_split {x : Exs} {before after : List Exposure} {r : Exposure} (log : x.log = before ++ r :: after)
    (first : ∀ y ∈ before, y.state ≠ .triggered) (triggered : r.state = .triggered) : x.triggered = some r := by
  have skipped : before.find? (fun e => decide (e.state = .triggered)) = none :=
    List.find?_eq_none.2 fun y hy => by simpa using first y hy
  rw [Exs.triggered, log, List.find?_append, skipped, List.find?_cons_of_pos (by simpa using triggered)]
  rfl

theorem Exs.exposure_split {x : Exs} {before after : List Exposure} {r : Exposure} (log : x.log = before ++ r :: after)
    (first : ∀ y ∈ before, y.id ≠ r.id) : x.exposure r.id = some r := by
  have skipped : before.find? (fun e => decide (e.id = r.id)) = none :=
    List.find?_eq_none.2 fun y hy => by simpa using first y hy
  rw [Exs.exposure, log, List.find?_append, skipped, List.find?_cons_of_pos (by simp)]
  rfl

theorem Exs.exposure_none {x : Exs} {n : Nat} (unnamed : ∀ e ∈ x.log, e.id ≠ n) : x.exposure n = none :=
  List.find?_eq_none.2 fun e he => by simpa using unnamed e he

/-- A change of the record with one id changes that record and no other. -/
theorem Exs.mapLog_split {x : Exs} {before after : List Exposure} {r : Exposure} (log : x.log = before ++ r :: after)
    (first : ∀ y ∈ before, y.id ≠ r.id) (last : ∀ y ∈ after, y.id ≠ r.id) (f : Exposure → Exposure) :
    x.mapLog r.id f = { x with log := before ++ f r :: after } := by
  have others {l : List Exposure} (h : ∀ y ∈ l, y.id ≠ r.id) : l.map (fun e => if e.id = r.id then f e else e) = l :=
    (List.map_congr_left fun y hy => if_neg (h y hy)).trans (List.map_id' l)
  rw [Exs.mapLog, log, List.map_append, List.map_cons, others first, others last, if_pos rfl]

theorem Clr.queueBackfill_eq (c : Clr) (n : Nat) : c.queueBackfill n =
    if c.backfillQueue.length < 64 then { c with backfillQueue := c.backfillQueue ++ [n] }
    else { c with
      sweepMark := true
      counters := { c.counters with backfillOverflows := bump c.counters.backfillOverflows 1 } } := rfl

/-! ### EXPOSURE DROP (R115) -/

theorem onlyImaging_of {s : State} {p : PortId} (h : s.isImaging p) : onlyImaging (s.port p).role = true := by rw [h]; rfl

theorem onlyImaging_of_not {s : State} {p : PortId} (h : ¬ s.isImaging p) : onlyImaging (s.port p).role = false := by
  unfold onlyImaging
  split
  · rename_i imaging
    exact absurd imaging h
  · rfl

/-- EXPOSURE DROP on an IMAGING port takes its own rule. -/
theorem exec_exposureDrop_imaging {dt : Nat} {p : PortId} {tag : Tag} {s e : State} (he : e = s.elapse dt)
    (ready : e.ready p tag) (imaging : e.isImaging p) (n : BitVec 32) :
    exec (.exposureDrop dt p tag n) s = .next ((e.clearSense p).takeExposureDrop p tag n) := by
  subst he
  exact congrArg Host.Outcome.next (client_ready ready (onlyImaging_of imaging) _)

theorem State.takeExposureDrop_gone {s : State} {n : BitVec 32} (h : s.exs.exposure n.toNat = none) (p : PortId)
    (tag : Tag) : s.takeExposureDrop p tag n = s.refuse p tag .gone 0 none := by
  rw [State.takeExposureDrop, h]

theorem State.takeExposureDrop_live {s : State} {n : BitVec 32} {x : Exposure} (h : s.exs.exposure n.toNat = some x)
    (live : x.state = .triggered ∨ x.state = .loading) (p : PortId) (tag : Tag) :
    s.takeExposureDrop p tag n = s.refuse p tag .state 0 none := by
  rw [State.takeExposureDrop, h]
  rcases live with state | state <;> simp only [state]

theorem State.takeExposureDrop_ended {s : State} {n : BitVec 32} {x : Exposure} (h : s.exs.exposure n.toNat = some x)
    (ended : x.state = .tiled ∨ x.state = .expired ∨ x.state = .dropped ∨ x.state = .missed) (p : PortId) (tag : Tag) :
    s.takeExposureDrop p tag n = s.refuse p tag .arg 0 none := by
  rw [State.takeExposureDrop, h]
  rcases ended with state | state | state | state <;> simp only [state]

theorem State.takeExposureDrop_exposed {s : State} {n : BitVec 32} {x : Exposure} (h : s.exs.exposure n.toNat = some x)
    (exposed : x.state = .exposed) (p : PortId) (tag : Tag) :
    s.takeExposureDrop p tag n = State.settle { s.answer p tag .done with
      exs := s.exs.mapLog x.id (fun e => { e with state := .dropped, deadline := none, held := none })
      clr := s.clr.queueBackfill x.id } := by
  rw [State.takeExposureDrop, h]
  simp only [exposed]
  rfl

/-- Settles O38: one case of `takeExposureDrop` for each state of the record. -/
theorem exposureDropCommand : Obligations.ExposureDropCommand := by
  intro dt p tag id s e he ready
  refine ⟨fun other => ?_, fun imaging unnamed => ?_, fun before after x imaging log first last named => ?_⟩
  · subst he
    exact congrArg Host.Outcome.next (client_role ready (onlyImaging_of_not other) _)
  · rw [exec_exposureDrop_imaging he ready imaging,
      State.takeExposureDrop_gone (s := e.clearSense p) (Exs.exposure_none unnamed), State.refuse_taken ready.1]
  · have found : (e.clearSense p).exs.exposure id.toNat = some x := named ▸ Exs.exposure_split (x := e.exs) log first
    rw [exec_exposureDrop_imaging he ready imaging]
    refine ⟨fun live => ?_, fun ended => ?_, fun exposed => ?_⟩
    · rw [State.takeExposureDrop_live found live, State.refuse_taken ready.1]
    · rw [State.takeExposureDrop_ended found ended, State.refuse_taken ready.1]
    · rw [State.takeExposureDrop_exposed found exposed, State.reply_taken ready.1]
      simp only [State.clearSense_exs, State.clearSense_clr]
      rw [Exs.mapLog_split log first last, Clr.queueBackfill_eq]

/-! ### The strobe, its timeout and the tile deadline (R109 to R112) -/

theorem State.strobeRise_none {s : State} (h : s.exs.triggered = none) :
    s.strobeRise = { s with exs := s.exs.countSpontaneous } := by
  rw [State.strobeRise, h]

theorem State.strobeRise_some {s : State} {x : Exposure} (h : s.exs.triggered = some x) :
    s.strobeRise = { s with exs := s.exs.mapLog x.id (fun e => { e with start := some s.tb }) } := by
  rw [State.strobeRise, h]

theorem State.strobeFall_none {s : State} (h : s.exs.triggered = none) : s.strobeFall = s := by
  rw [State.strobeFall, h]

theorem State.strobeFall_unstarted {s : State} {x : Exposure} (h : s.exs.triggered = some x) (start : x.start = none) :
    s.strobeFall = { s with exs := s.exs.countSpontaneous } := by
  rw [State.strobeFall, h]
  simp only [start]

theorem State.strobeFall_started {s : State} {x : Exposure} {ts : Time} (h : s.exs.triggered = some x)
    (start : x.start = some ts) :
    s.strobeFall = { s with exs := s.exs.mapLog x.id (fun e =>
      e.complete s.exs.setup ts s.tb (s.ang.azimuthQuery (midTime ts s.tb))) }.raiseAll evExposed := by
  rw [State.strobeFall, h]
  simp only [start]

theorem strobeEdges : Statement.StrobeEdges := by
  intro dt s e he
  have rise : exec (.strobeRise dt) s = .next e.strobeRise := he ▸ rfl
  have fall : exec (.strobeFall dt) s = .next e.strobeFall := he ▸ rfl
  rw [rise, fall]
  refine ⟨fun none => ?_, fun before after x log first last triggered => ?_⟩
  · have none := Exs.triggered_eq_none.2 none
    exact ⟨congrArg _ (State.strobeRise_none none), congrArg _ (State.strobeFall_none none)⟩
  · have found := Exs.triggered_split log (fun y hy => (first y hy).1) triggered
    have changed := Exs.mapLog_split log (fun y hy => (first y hy).2) last
    refine ⟨?_, fun unstarted => ?_, fun ts mid az started hmid haz => ?_⟩
    · rw [State.strobeRise_some found, changed]
    · rw [State.strobeFall_unstarted found unstarted]
      rfl
    · subst hmid haz
      rw [State.strobeFall_started found started, changed]
      rfl

theorem timerDue_of_le {r : TimerRun} {now : Time} (h : r.length ≤ (now - r.start).toNat) :
    timerDue (some r) now = true := decide_eq_true h

theorem strobeTimeoutStatement : Statement.StrobeTimeout := by
  intro dt before after x r s e he log first last triggered running due
  have found := Exs.triggered_split log (fun y hy => (first y hy).1) triggered
  have timed : timerDue x.strobe e.tb = true := running ▸ timerDue_of_le due
  have expiry : exec (.strobeTimeoutExpiry dt) s = .next e.strobeTimeout := he ▸ rfl
  rw [expiry, State.strobeTimeout, found]
  simp only [timed, if_true]
  rw [Exs.mapLog_split log (fun y hy => (first y hy).2) last]

theorem tileDeadlineExpiry : Statement.TileDeadlineExpiry := by
  intro dt id before after x r s e he log first last named exposed running due
  have timed : timerDue x.deadline e.tb = true := running ▸ timerDue_of_le due
  have expiry : exec (.tileDeadlineExpiry dt id) s = .next (e.tileDeadline id.toNat).settle := he ▸ rfl
  rw [expiry, ← named, State.tileDeadline, Exs.exposure_split log first]
  simp only [timed, exposed, decide_true, Bool.and_self, if_true]
  rw [Exs.mapLog_split log first last]
  rfl

/-! ### A trigger cause (R106) -/

theorem triggerCauseStatement : Statement.TriggerCause := by
  intro s
  refine ⟨fun skips => ?_, fun left none short => ?_, fun before after x left none full log live terminal => ?_⟩
  · have skip : s.exs.mustSkip = true := by
      rw [← Bool.not_eq_false, Exs.mustSkip_eq_false]
      rintro ⟨left, none, room⟩
      rcases skips with stopped | ⟨x, mem, triggered⟩ | ⟨full, live⟩
      · exact left stopped
      · exact none x mem triggered
      · obtain ⟨x, mem, terminal⟩ := room.resolve_left (Nat.not_lt.2 full)
        exact absurd terminal (by simp [live x mem])
    exact State.triggerCause_skip skip
  · rw [State.triggerCause_fire (Exs.mustSkip_eq_false.2 ⟨left, none, .inl short⟩), Exs.fire, makeRoom_short short]
    rfl
  · have room : ∃ e ∈ s.exs.log, e.state.isTerminal = true := ⟨x, by simp [log], terminal⟩
    have made : makeRoom s.exs.log = before ++ after := by
      rw [makeRoom_full full, log, List.eraseP_append_right _ (fun y hy => by simp [live y hy]),
        List.eraseP_cons_of_pos (by exact terminal)]
    rw [State.triggerCause_fire (Exs.mustSkip_eq_false.2 ⟨left, none, .inr room⟩), Exs.fire, made]
    rfl

/-! ### Stations reached (R107) -/

/-- What a trigger cause makes of EXS (R106). -/
def Exs.takeCause (x : Exs) (now : Time) : Exs := if x.mustSkip then x.countSkip else x.fire now

theorem State.triggerCause_exs (s : State) : s.triggerCause.exs = s.exs.takeCause s.tb := by
  unfold State.triggerCause Exs.takeCause
  split <;> rfl

theorem State.triggerCause_tb (s : State) : s.triggerCause.tb = s.tb := by rw [(ExsKept.triggerCause s).rest]

theorem State.triggerCause_ang (s : State) : s.triggerCause.ang = s.ang := by rw [(ExsKept.triggerCause s).rest]

theorem Exs.takeCause_setup (x : Exs) (now : Time) : (x.takeCause now).setup = x.setup := by
  unfold Exs.takeCause
  split <;> rfl

/-- The next station is reached: the index moves on and a trigger cause is taken. -/
abbrev State.reachStation (u : State) : State :=
  ({ u with exs := { u.exs with nextStation := u.exs.nextStation + 1 } } : State).triggerCause

/-- What the reaching of a station makes of EXS. -/
def Exs.reachStation (now : Time) (x : Exs) : Exs := { x with nextStation := x.nextStation + 1 }.takeCause now

theorem State.reachStation_exs (s : State) : s.reachStation.exs = s.exs.reachStation s.tb := State.triggerCause_exs _

/-- Reaching `n` stations changes EXS by EXS and the count of the timebase alone. -/
theorem State.repeat_reachStation (n : Nat) (s : State) :
    (Nat.repeat State.reachStation n s).exs = Nat.repeat (Exs.reachStation s.tb) n s.exs ∧
      (Nat.repeat State.reachStation n s).tb = s.tb := by
  induction n with
  | zero => exact ⟨rfl, rfl⟩
  | succ n ih =>
    obtain ⟨exs, tb⟩ := ih
    refine ⟨(State.reachStation_exs _).trans ?_, (State.triggerCause_tb _).trans tb⟩
    rw [exs, tb]
    rfl

theorem repeat_apply_comm {α : Type} (f : α → α) (n : Nat) (a : α) : Nat.repeat f n (f a) = f (Nat.repeat f n a) := by
  induction n with
  | zero => rfl
  | succ n ih => exact congrArg f ih

/-- The stations up to the first beyond the travel are reached, one trigger cause each. -/
theorem State.reachStations_exs (l : List Nat) (s : State) : (State.reachStations l s).exs =
    Nat.repeat (Exs.reachStation s.tb) (l.takeWhile (fun v : Nat => decide ((v : Int) ≤ s.ang.travelAu))).length s.exs := by
  induction l generalizing s with
  | nil => rfl
  | cons v rest ih =>
    unfold State.reachStations
    by_cases reached : (v : Int) ≤ s.ang.travelAu
    · have tb : s.reachStation.tb = s.tb := State.triggerCause_tb _
      have ang : s.reachStation.ang = s.ang := State.triggerCause_ang _
      rw [if_pos reached, List.takeWhile_cons_of_pos (by simpa using reached), List.length_cons]
      refine (ih s.reachStation).trans ?_
      rw [State.reachStation_exs, tb, ang]
      exact repeat_apply_comm _ _ _
    · rw [if_neg reached, List.takeWhile_cons_of_neg (by simpa using reached)]
      rfl

/-! ### A travel change as EXS takes it (R107, R108) -/

theorem State.exsTravel_quiet {s : State} {dir : Dir} (h : s.scn.state ≠ .running ∨ s.exs.setup.mode = .off ∨
    (s.exs.setup.mode = .stations ∧ dir = .backward)) : s.exsTravel dir = s := by
  unfold State.exsTravel
  split
  · rename_i running
    rcases h with outside | off | ⟨stations, rfl⟩
    · exact absurd running outside
    · rw [off]
    · rw [stations]
  all_goals rfl

theorem State.exsTravel_stations {s : State} (running : s.scn.state = .running) (mode : s.exs.setup.mode = .stations) :
    s.exsTravel .forward = s.compareStations := by
  unfold State.exsTravel
  rw [running, mode]

theorem State.exsTravel_periodic {s : State} (running : s.scn.state = .running) (mode : s.exs.setup.mode = .periodic)
    (dir : Dir) : s.exsTravel dir = s.countPeriodic dir := by
  unfold State.exsTravel
  rw [running, mode]

theorem State.countPeriodic_counts {s : State} (more : 2 ≤ s.exs.periodic) :
    (s.countPeriodic .forward).exs = { s.exs with periodic := s.exs.periodic - 1 } := by
  unfold State.countPeriodic
  rw [if_neg (by omega)]

theorem State.countPeriodic_due {s : State} (due : s.exs.periodic = 1) : (s.countPeriodic .forward).exs =
    { ({ s.exs with periodic := 0 } : Exs).takeCause s.tb with periodic := s.exs.setup.interval } := by
  unfold State.countPeriodic
  rw [if_pos (by omega)]
  simp only [State.triggerCause_exs, Exs.takeCause_setup]

theorem State.countPeriodic_back {s : State} (within : s.exs.periodic ≤ s.exs.setup.interval) :
    (s.countPeriodic .backward).exs = { s.exs with periodic := min (s.exs.periodic + 1) s.exs.setup.interval } := by
  unfold State.countPeriodic
  simp only [max_eq_right within]

/-- The span test ends a running scan that has reached its span, and lets any other be. -/
theorem State.spanTest_reached {s : State} (reached : spanReached s.scn.params.azimuthSpan s.ang.travel = true) :
    s.spanTest.scn.state ≠ .running := by
  unfold State.spanTest
  split
  · rw [if_pos reached]
    simp [State.enterDraining]
  all_goals simp_all

theorem State.spanTest_short {s : State} (short : spanReached s.scn.params.azimuthSpan s.ang.travel = false) :
    s.spanTest = s := by
  unfold State.spanTest
  split
  · rw [if_neg (by simp [short])]
  all_goals rfl

theorem State.spanTest_outside {s : State} (outside : s.scn.state ≠ .running) : s.spanTest = s := by
  unfold State.spanTest
  split
  · rename_i running
    exact absurd running outside
  all_goals rfl

/-- What of a counted azimuth edge the span test and EXS begin with. -/
theorem State.countAzimuth_rest (s : State) (dir : Dir) (active : Bool) : (s.countAzimuth dir active).exs = s.exs ∧
    (s.countAzimuth dir active).tb = s.tb ∧ (s.countAzimuth dir active).scn = s.scn ∧
    (s.countAzimuth dir active).ang.travel = if dir = .forward then s.ang.travel + 1 else s.ang.travel - 1 := by
  have kept := (State.raiseIndexFault_kept (s.setAng (s.ang.azimuthEdge s.tb dir active).1)
    (s.ang.azimuthEdge s.tb dir active).2).1
  exact ⟨kept.exs, kept.tb, kept.scn, congrArg Ang.travel (s.countAzimuth_ang dir active)⟩

theorem travelTriggers : Statement.TravelTriggers := by
  intro dt dir active travel reached s e he htravel hreached
  have taken : exec (.quadratureEdge dt .azimuth (if dir = .forward then .forward else .backward) active) s =
      .next (e.azimuthEdge dir active).settle := by
    rw [he]
    exact congrArg (fun u => Host.Outcome.next (State.settle u)) (takeEdge_counted _ .azimuth dir active)
  refine ⟨_, taken, ?_⟩
  rw [(Kept.settle _).exs, State.azimuthEdge_eq]
  obtain ⟨exs, tb, scn, moved⟩ := e.countAzimuth_rest dir active
  rw [← htravel] at moved
  generalize e.countAzimuth dir active = u at exs tb scn moved
  have span : spanReached u.scn.params.azimuthSpan u.ang.travel = reached := by rw [scn, moved, hreached]; rfl
  have quiet := State.exsTravel_quiet (s := u.spanTest) (dir := dir)
  rw [State.spanTest_exs, exs] at quiet
  have runs (running : e.scn.state = .running) : u.scn.state = .running := scn ▸ running
  have mode {m : CameraMode} (h : e.exs.setup.mode = m) : u.exs.setup.mode = m := exs ▸ h
  refine ⟨fun still => ?_, fun running short stations forward => ?_, fun running short periodic _ within => ?_⟩
  · have stays : u.spanTest.exsTravel dir = u.spanTest := by
      rcases still with outside | met | still
      · exact quiet (.inl (by rwa [State.spanTest_outside (scn ▸ outside), scn]))
      · exact quiet (.inl (State.spanTest_reached (span.trans met)))
      · exact quiet (.inr still)
    rw [stays, State.spanTest_exs, exs]
  · subst forward
    rw [State.spanTest_short (span.trans short), State.exsTravel_stations (runs running) (mode stations),
      (State.repeat_reachStation _ e).1, State.compareStations, State.reachStations_exs, exs, tb, Ang.travelAu, moved]
  · rw [State.spanTest_short (span.trans short), State.exsTravel_periodic (runs running) (mode periodic)]
    rw [← exs] at within ⊢
    refine ⟨fun forward more => ?_, fun forward due => ?_, fun backward => ?_⟩
    · rw [forward, State.countPeriodic_counts more]
    · rw [forward, State.countPeriodic_due due, State.triggerCause_exs, tb]
    · rw [backward, State.countPeriodic_back within]

/-! ### Entry to RUNNING (R50, R100, R107) -/

/-- The second in-band revolution in ARMED with the ranging link UP enters RUNNING (R48). -/
theorem State.revolutionReport_second {s : State} (armed : s.scn.state = .armed) (up : s.eca.link = .up)
    (first : s.scn.inBand = 1) (t : Time) : s.revolutionReport .inBand t = s.enterRunning t := by
  rw [State.revolutionReport_armed armed]
  unfold State.armedReport
  simp only [up, first]
  rfl

theorem State.exsEnterRunning_stations {s : State} (mode : s.exs.setup.mode = .stations) : s.exsEnterRunning =
    State.compareStations { s with exs := { s.exs with nextStation := 0, periodic := s.exs.setup.interval } } := by
  unfold State.exsEnterRunning
  simp only [mode]

theorem State.exsEnterRunning_other {s : State} (mode : s.exs.setup.mode ≠ .stations) :
    s.exsEnterRunning = { s with exs := { s.exs with nextStation := 0, periodic := s.exs.setup.interval } } := by
  unfold State.exsEnterRunning
  simp only
  split
  · rename_i stations
    exact absurd stations mode
  all_goals rfl

/-- A travel of 0 reaches the stations of value 0. -/
theorem takeWhile_travel_zero {g : Ang} (h : g.travel = 0) (l : List Nat) :
    l.takeWhile (fun v : Nat => decide ((v : Int) ≤ g.travelAu)) = l.takeWhile (fun v => decide (v ≤ 0)) := by
  have au : g.travelAu = 0 := by rw [Ang.travelAu, h]; rfl
  congr 1
  funext v
  rw [au, decide_eq_decide]
  omega

theorem stationsAtEntry : Statement.StationsAtEntry := by
  intro dt t0 s e base he armed first up index previous within hbase
  obtain ⟨tb, scn, eca, prevIndex, -⟩ := e.countMirror_rest .forward true
  have exs := e.countMirror_exs .forward true
  have ends : (e.ang.mirrorEdge e.tb .forward true).2.endsRevolution = true := by
    rw [endsRevolution_forward, if_pos rfl, index]
  have edge : e.mirrorEdge .forward true = (e.countMirror .forward true).endRevolution := by
    rw [State.mirrorEdge_forward, if_pos ends]
  have taken : exec (.quadratureEdge dt .mirror .forward true) s = .next (e.mirrorEdge .forward true).settle := he ▸ rfl
  refine ⟨_, taken, ?_⟩
  rw [(Kept.settle _).exs, edge]
  rw [← scn] at armed first within
  rw [← eca] at up
  rw [← prevIndex] at previous
  rw [← tb] at within
  generalize e.countMirror .forward true = m at *
  obtain ⟨g, report, -⟩ := Ang.endRevolution_inBand previous ((verdictOf_eq m.scn.params (m.tb - t0)).trans (if_pos within))
  rw [State.endRevolution_eq report, State.revolutionReport_second (s := m.setAng g) armed up first]
  obtain ⟨u, entered, exs', tb', travel⟩ := (m.setAng g).enterRunning_eq m.tb
  have sameExs : u.exs = e.exs := exs'.trans exs
  have sameTb : u.tb = e.tb := tb'.trans tb
  rw [entered]
  subst hbase
  refine ⟨fun other => ?_, fun stations => ?_⟩
  · rw [State.exsEnterRunning_other (sameExs ▸ other), sameExs]
  · rw [State.exsEnterRunning_stations (sameExs ▸ stations), (State.repeat_reachStation _ _).1, State.compareStations,
      State.reachStations_exs, sameExs, sameTb, takeWhile_travel_zero travel, List.drop_zero]

/-- Settles O39: what a travel change and the entry to RUNNING make of EXS is the repeated `Exs.reachStation`; a trigger
cause is `Exs.mustSkip_eq_false`; the strobe, its timeout and the tile deadline change one record (`Exs.mapLog_split`). -/
theorem lifeOfAnExposure : Obligations.LifeOfAnExposure :=
  ⟨travelTriggers, stationsAtEntry, triggerCauseStatement, strobeEdges, strobeTimeoutStatement, tileDeadlineExpiry⟩

end Sys2Proof.Machine

namespace Sys2Proof.Machine

/-! ### The pass in progress, as the pending counts see it (R137, R142) -/

section PassInProgress

variable {c d : Clr} {x : Pass}

theorem Clr.firstPassRunning_of_none (pass : c.pass = none) : c.firstPassRunning = none := by
  rw [Clr.firstPassRunning, pass]
  rfl

theorem Clr.stepRunning_of_none (pass : c.pass = none) : c.stepRunning = none := by
  rw [Clr.stepRunning, pass]
  rfl

theorem Clr.firstPassRunning_of_first (pass : c.pass = some x) (first : x.kind = .firstPass) :
    c.firstPassRunning = some x := by
  rw [Clr.firstPassRunning, pass, Option.filter_some, first]
  rfl

theorem Clr.stepRunning_of_first (pass : c.pass = some x) (first : x.kind = .firstPass) : c.stepRunning = none := by
  rw [Clr.stepRunning, pass, Option.filter_some, first]
  rfl

theorem Clr.firstPassRunning_of_step (pass : c.pass = some x) (step : x.kind ≠ .firstPass) :
    c.firstPassRunning = none := by
  have isStep : x.kind.isStep = true := by
    rw [← Bool.not_eq_false, x.kind.isStep_eq_false_iff]
    exact step
  rw [Clr.firstPassRunning, pass, Option.filter_some, isStep]
  rfl

theorem Clr.stepRunning_of_step (pass : c.pass = some x) (step : x.kind ≠ .firstPass) : c.stepRunning = some x := by
  have isStep : x.kind.isStep = true := by
    rw [← Bool.not_eq_false, x.kind.isStep_eq_false_iff]
    exact step
  rw [Clr.stepRunning, pass, Option.filter_some, isStep]
  rfl

theorem Clr.firstPassOn_same (running : c.firstPassRunning = some x) : c.firstPassOn x.line = x := by
  simp [Clr.firstPassOn, running, Option.filter_some]

theorem Clr.firstPassOn_other {n : Nat} (other : ∀ x ∈ c.firstPassRunning, x.line ≠ n) :
    c.firstPassOn n = ⟨n, .firstPass, 0, 0⟩ := by
  unfold Clr.firstPassOn
  cases running : c.firstPassRunning with
  | none => rfl
  | some x => simp [Option.filter_some, other x running]

theorem Clr.leftPending_same (running : c.stepRunning = some x) : c.leftPending x.line = x.tally := by
  simp [Clr.leftPending, running, Option.filter_some]

theorem Clr.leftPending_other {n : Nat} (other : ∀ x ∈ c.stepRunning, x.line ≠ n) : c.leftPending n = 0 := by
  unfold Clr.leftPending
  cases running : c.stepRunning with
  | none => rfl
  | some x => simp [Option.filter_some, other x running]

theorem Clr.firstPassRunning_congr (pass : d.pass = c.pass) : d.firstPassRunning = c.firstPassRunning := by
  rw [Clr.firstPassRunning, pass, ← Clr.firstPassRunning]

theorem Clr.stepRunning_congr (pass : d.pass = c.pass) : d.stepRunning = c.stepRunning := by
  rw [Clr.stepRunning, pass, ← Clr.stepRunning]

theorem Clr.leftPending_congr (step : d.stepRunning = c.stepRunning) (n : Nat) : d.leftPending n = c.leftPending n := by
  rw [Clr.leftPending, step, ← Clr.leftPending]

/-- A closed line is counted alike where the first pass on it stands alike. -/
theorem ClosedLine.counted_congr {l : ClosedLine} (first : d.firstPassOn l.line.number = c.firstPassOn l.line.number)
    (counted : l.counted c) : l.counted d := by
  unfold ClosedLine.counted at counted ⊢
  rwa [first]

theorem ClosedLine.counted_congr_running {l : ClosedLine} (first : d.firstPassRunning = c.firstPassRunning)
    (counted : l.counted c) : l.counted d :=
  ClosedLine.counted_congr (by rw [Clr.firstPassOn, first, ← Clr.firstPassOn]) counted

end PassInProgress

/-! ### The invariant of the pending counts, part by part (R69, R81, R119, R137, R138) -/

/-- `LineColourInv` with a name for each part. -/
structure LineColours (s : State) : Prop where
  ascending : (s.rng.committed.map RingLine.number ++ s.rng.closed.map (fun l => l.line.number)).Pairwise (· < ·)
  behind : ∀ n ∈ s.ringNumbers, n ≤ s.lnb.lineCounter ∧ (∀ x ∈ s.lnb.fifo, n < x.line) ∧
    ∀ h ∈ s.lnb.openLine, n < h.lineNumber
  items : s.lnb.fifo.Pairwise (fun a b => a.line ≤ b.line ∧ (a.header.isSome = true → a.line < b.line))
  itemsNumbered : ∀ x ∈ s.lnb.fifo, x.line ≤ s.lnb.lineCounter
  openNumbered : ∀ h ∈ s.lnb.openLine, h.lineNumber ≤ s.lnb.lineCounter ∧
    ∀ x ∈ s.lnb.fifo, x.line ≤ h.lineNumber ∧ (x.header.isSome = true → x.line < h.lineNumber)
  queuedOnce : s.clr.colourQueue.Nodup
  colouring : ∀ l ∈ s.rng.closed,
    l.line.number ∈ s.clr.colourQueue ∨ s.clr.firstPassRunning.map Pass.line = some l.line.number → l.state = .colouring
  listed : ∀ n ∈ s.clr.pendingList, n ∈ s.rng.committed.map RingLine.number
  stepOn : ∀ x ∈ s.clr.stepRunning, x.line ∈ s.rng.committed.map RingLine.number
  finished : ∀ x ∈ s.lnb.fifo, ∀ h ∈ x.header, h.lineNumber = x.line ∧ h.uncoloured
  openUncoloured : ∀ h ∈ s.lnb.openLine, h.uncoloured
  written : ∀ o ∈ s.rng.openLine, countPending o.points = 0
  closed : ∀ l ∈ s.rng.closed, l.counted s.clr
  committed : ∀ l ∈ s.rng.committed, l.header.agrees ∧
    l.header.pendingCount = countPending l.points + s.clr.leftPending l.number

theorem lineColourInv_iff (s : State) : LineColourInv s ↔ LineColours s := by
  constructor
  · rintro ⟨⟨ascending, behind, items, itemsNumbered, openNumbered⟩, ⟨queuedOnce, colouring, listed, stepOn⟩,
      ⟨finished, openUncoloured, written⟩, closed, committed⟩
    exact ⟨ascending, behind, items, itemsNumbered, openNumbered, queuedOnce, colouring, listed, stepOn, finished,
      openUncoloured, written, closed, committed⟩
  · intro h
    exact ⟨⟨h.ascending, h.behind, h.items, h.itemsNumbered, h.openNumbered⟩,
      ⟨h.queuedOnce, h.colouring, h.listed, h.stepOn⟩, ⟨h.finished, h.openUncoloured, h.written⟩, h.closed, h.committed⟩

/-- The line numbers RNG and CLR hold, by where they stand. -/
theorem State.mem_ringNumbers (s : State) (n : Nat) : n ∈ s.ringNumbers ↔
    n ∈ s.rng.committed.map RingLine.number ∨ n ∈ s.rng.closed.map (fun l => l.line.number) ∨ n ∈ s.clr.colourQueue ∨
      ∃ x ∈ s.clr.firstPassRunning, x.line = n := by
  simp [State.ringNumbers]

namespace LineColours

variable {s t : State}

theorem committed_ascending (inv : LineColours s) : (s.rng.committed.map RingLine.number).Pairwise (· < ·) :=
  (List.pairwise_append.1 inv.ascending).1

theorem closed_ascending (inv : LineColours s) : (s.rng.closed.map (fun l => l.line.number)).Pairwise (· < ·) :=
  (List.pairwise_append.1 inv.ascending).2.1

/-- A number names one committed line. -/
theorem committed_inj (inv : LineColours s) {l k : RingLine} (hl : l ∈ s.rng.committed) (hk : k ∈ s.rng.committed)
    (same : l.number = k.number) : l = k :=
  List.inj_on_of_nodup_map (inv.committed_ascending.imp Nat.ne_of_lt) hl hk same

/-- A number names one line of the closed-line list. -/
theorem closed_inj (inv : LineColours s) {l k : ClosedLine} (hl : l ∈ s.rng.closed) (hk : k ∈ s.rng.closed)
    (same : l.line.number = k.line.number) : l = k :=
  List.inj_on_of_nodup_map (f := fun l : ClosedLine => l.line.number) (inv.closed_ascending.imp Nat.ne_of_lt) hl hk same

end LineColours

/-- What the invariant reads: the lines of RNG and LNB, the Point FIFO, and of CLR the colour queue, the pass in progress and
the pending-line list. -/
structure LineView where
  committed : List RingLine
  closed : List ClosedLine
  ringOpen : Option RingOpen
  fifo : List FifoItem
  openLine : Option LineHeader
  lineCounter : Nat
  colourQueue : List Nat
  pass : Option Pass
  pendingList : List Nat

def State.lineView (s : State) : LineView :=
  ⟨s.rng.committed, s.rng.closed, s.rng.openLine, s.lnb.fifo, s.lnb.openLine, s.lnb.lineCounter, s.clr.colourQueue,
    s.clr.pass, s.clr.pendingList⟩

theorem LineColours.congr {s t : State} (inv : LineColours s) (view : t.lineView = s.lineView) : LineColours t := by
  obtain ⟨committed, closed, ringOpen, fifo, openLine, lineCounter, colourQueue, pass, pendingList⟩ :=
    LineView.mk.inj view
  have first := Clr.firstPassRunning_congr pass
  have step := Clr.stepRunning_congr pass
  rw [← lineColourInv_iff] at inv ⊢
  unfold LineColourInv LineOrderInv ColourListsInv UncolouredInv State.ringNumbers at inv ⊢
  rw [committed, closed, ringOpen, fifo, openLine, lineCounter, colourQueue, pendingList, first, step]
  obtain ⟨order, lists, uncoloured, counted, pending⟩ := inv
  refine ⟨order, lists, uncoloured, fun l mem => ClosedLine.counted_congr_running first (counted l mem), fun l mem => ?_⟩
  rw [Clr.leftPending_congr step]
  exact pending l mem

end Sys2Proof.Machine

namespace Sys2Proof.Machine

namespace LineColours

variable {s t : State}

/-! ### LNB's work (R67 to R74) -/

/-- LNB's own work leaves RNG's lines and CLR; what it makes of the Point FIFO, the open line and the counter decides. -/
theorem of_lnb (inv : LineColours s) (lines : SameLines s t) (clr : t.clr = s.clr)
    (behind : ∀ n ∈ s.ringNumbers, n ≤ t.lnb.lineCounter ∧ (∀ x ∈ t.lnb.fifo, n < x.line) ∧
      ∀ h ∈ t.lnb.openLine, n < h.lineNumber)
    (items : t.lnb.fifo.Pairwise (fun a b => a.line ≤ b.line ∧ (a.header.isSome = true → a.line < b.line)))
    (itemsNumbered : ∀ x ∈ t.lnb.fifo, x.line ≤ t.lnb.lineCounter)
    (openNumbered : ∀ h ∈ t.lnb.openLine, h.lineNumber ≤ t.lnb.lineCounter ∧
      ∀ x ∈ t.lnb.fifo, x.line ≤ h.lineNumber ∧ (x.header.isSome = true → x.line < h.lineNumber))
    (finished : ∀ x ∈ t.lnb.fifo, ∀ h ∈ x.header, h.lineNumber = x.line ∧ h.uncoloured)
    (openUncoloured : ∀ h ∈ t.lnb.openLine, h.uncoloured) : LineColours t := by
  have numbers : t.ringNumbers = s.ringNumbers := by
    unfold State.ringNumbers
    rw [lines.committed, lines.closed, clr]
  constructor
  case behind =>
    rw [numbers]
    exact behind
  case items => exact items
  case itemsNumbered => exact itemsNumbered
  case openNumbered => exact openNumbered
  case finished => exact finished
  case openUncoloured => exact openUncoloured
  all_goals
    try rw [lines.committed]
    try rw [lines.closed]
    try rw [lines.openLine]
    try rw [clr]
  exacts [inv.ascending, inv.queuedOnce, inv.colouring, inv.listed, inv.stepOn, inv.written, inv.closed, inv.committed]

/-- The open line takes new values, or is ended; it keeps its number and its colour fields. -/
theorem openLine_changed (inv : LineColours s) (lines : SameLines s t) (clr : t.clr = s.clr)
    (fifo : t.lnb.fifo = s.lnb.fifo) (counter : t.lnb.lineCounter = s.lnb.lineCounter)
    (line : ∀ g ∈ t.lnb.openLine, ∃ h ∈ s.lnb.openLine, g.lineNumber = h.lineNumber ∧ (h.uncoloured → g.uncoloured)) :
    LineColours t := by
  refine inv.of_lnb lines clr (fun n mem => ?_) ?_ ?_ (fun g hg => ?_) ?_ (fun g hg => ?_)
  all_goals
    try rw [fifo]
    try rw [counter]
  · obtain ⟨numbered, behind, openBehind⟩ := inv.behind n mem
    refine ⟨numbered, behind, fun g hg => ?_⟩
    obtain ⟨h, hh, number, -⟩ := line g hg
    exact number ▸ openBehind h hh
  · exact inv.items
  · exact inv.itemsNumbered
  · obtain ⟨h, hh, number, -⟩ := line g hg
    rw [number]
    exact inv.openNumbered h hh
  · exact inv.finished
  · obtain ⟨h, hh, -, uncoloured⟩ := line g hg
    exact uncoloured (inv.openUncoloured h hh)

/-- An item of the open line goes into the FIFO behind the others; a close notice ends the line. -/
theorem item_of_openLine (inv : LineColours s) (lines : SameLines s t) (clr : t.clr = s.clr) {h : LineHeader}
    (line : s.lnb.openLine = some h) {x : FifoItem} (fifo : t.lnb.fifo = s.lnb.fifo ++ [x])
    (counter : t.lnb.lineCounter = s.lnb.lineCounter) (number : x.line = h.lineNumber)
    (notice : ∀ g ∈ x.header, g.lineNumber = x.line ∧ g.uncoloured)
    (stays : ∀ g ∈ t.lnb.openLine, g.lineNumber = h.lineNumber ∧ g.uncoloured ∧ x.header = none) : LineColours t := by
  obtain ⟨numbered, below⟩ := inv.openNumbered h line
  refine inv.of_lnb lines clr (fun n mem => ?_) ?_ ?_ (fun g hg => ?_) ?_ (fun g hg => ?_)
  all_goals
    try rw [fifo]
    try rw [counter]
  · obtain ⟨numbered', behind, openBehind⟩ := inv.behind n mem
    refine ⟨numbered', ?_, fun g hg => ?_⟩
    · simpa [or_imp, forall_and, number] using ⟨behind, openBehind h line⟩
    · rw [(stays g hg).1]
      exact openBehind h line
  · refine List.pairwise_append.2 ⟨inv.items, List.pairwise_singleton _ _, ?_⟩
    simpa [number] using below
  · simpa [or_imp, forall_and, number] using ⟨inv.itemsNumbered, numbered⟩
  · obtain ⟨same, -, point⟩ := stays g hg
    rw [same]
    refine ⟨numbered, fun y mem => ?_⟩
    rcases List.mem_append.1 mem with mem | mem
    · exact below y mem
    · obtain rfl := List.mem_singleton.1 mem
      exact ⟨number.le, fun isNotice => by rw [point] at isNotice; cases isNotice⟩
  · intro y mem
    rcases List.mem_append.1 mem with mem | mem
    · exact inv.finished y mem
    · obtain rfl := List.mem_singleton.1 mem
      exact notice
  · exact (stays g hg).2.1

theorem closeLine (inv : LineColours s) (c : CloseCause) : LineColours (s.closeLine c) := by
  have clr := (LnbKept.closeLine s c).clr
  have lines := SameLines.closeLine s c
  cases line : s.lnb.openLine with
  | none =>
    rw [State.closeLine_none line]
    exact inv
  | some h =>
    have lnb := State.closeLine_lnb line c
    exact inv.item_of_openLine lines clr line (by rw [lnb]) (by rw [lnb]) rfl
      (by rintro g ⟨⟩; exact ⟨rfl, inv.openUncoloured h line⟩) (by rw [lnb]; nofun)

theorem offerPoint (inv : LineColours s) {g h : LineHeader} (line : s.lnb.openLine = some g)
    (number : h.lineNumber = g.lineNumber) (uncoloured : h.uncoloured) (p : Point) : LineColours (s.offerPoint h p) := by
  have clr := (LnbKept.offerPoint s h p).clr
  have lines := SameLines.offerPoint s h p
  by_cases room : fifoPoints s.lnb.fifo < 512
  · have lnb := State.offerPoint_lnb_room room h p
    exact inv.item_of_openLine (x := .point h.lineNumber p) lines clr line (by rw [lnb]) (by rw [lnb]) number nofun
      (by rw [lnb]; rintro _ ⟨⟩; exact ⟨number, uncoloured, rfl⟩)
  · have lnb := State.offerPoint_lnb_full room h p
    exact inv.openLine_changed lines clr (by rw [lnb]) (by rw [lnb])
      (by rw [lnb]; rintro _ ⟨⟩; exact ⟨g, line, number, fun _ => uncoloured⟩)

theorem acceptPoint (inv : LineColours s) {h : LineHeader} (line : s.lnb.openLine = some h) (x : FormedPoint) :
    LineColours (s.acceptPoint h x) := by
  have offered : LineColours (s.offerPoint (h.acceptPoint x) x.point) :=
    inv.offerPoint (h := h.acceptPoint x) line rfl (inv.openUncoloured h line) _
  by_cases last : h.accepted + 1 = 16384
  · rw [State.acceptPoint_last last]
    exact offered.closeLine .truncated
  · rw [State.acceptPoint_next last]
    exact offered

/-- A new line takes the next number, which is above every number in the part (R62, R67). -/
theorem openLine (inv : LineColours s) (rev : BitVec 32) : LineColours (s.openLine rev) := by
  have lines : SameLines s (s.openLine rev) := ⟨rfl, rfl, rfl, rfl⟩
  have above (x : FifoItem) (mem : x ∈ s.lnb.fifo) : x.line < s.lnb.lineCounter + 1 :=
    Nat.lt_succ_of_le (inv.itemsNumbered x mem)
  refine inv.of_lnb lines rfl (fun n mem => ?_) ?_ ?_ ?_ ?_ ?_
  all_goals rw [State.openLine_eq]
  · obtain ⟨numbered, behind, -⟩ := inv.behind n mem
    refine ⟨Nat.le_succ_of_le numbered, ?_, ?_⟩
    · simpa [or_imp, forall_and, FifoItem.line] using ⟨behind, numbered⟩
    · rintro _ ⟨⟩
      exact Nat.lt_succ_of_le numbered
  · refine List.pairwise_append.2 ⟨inv.items, List.pairwise_singleton _ _, ?_⟩
    rintro x mem _ (_ | ⟨_, ⟨⟩⟩)
    exact ⟨(above x mem).le, fun _ => above x mem⟩
  · intro x mem
    rcases List.mem_append.1 mem with mem | mem
    · exact (above x mem).le
    · obtain rfl := List.mem_singleton.1 mem
      exact Nat.le_refl _
  · rintro _ ⟨⟩
    refine ⟨Nat.le_refl _, fun x mem => ?_⟩
    rcases List.mem_append.1 mem with mem | mem
    · exact ⟨(above x mem).le, fun _ => above x mem⟩
    · obtain rfl := List.mem_singleton.1 mem
      exact ⟨Nat.le_refl _, nofun⟩
  · intro x mem
    rcases List.mem_append.1 mem with mem | mem
    · exact inv.finished x mem
    · obtain rfl := List.mem_singleton.1 mem
      nofun
  · rintro _ ⟨⟩
    exact ⟨rfl, rfl⟩

theorem placePoint (inv : LineColours s) (x : FormedPoint) : LineColours (s.placePoint x) := by
  unfold State.placePoint
  split
  · rename_i h line
    exact inv.acceptPoint line x
  · split
    · exact inv.congr rfl
    · split
      · exact inv.congr rfl
      · exact (inv.openLine x.revolution).acceptPoint rfl x

theorem takePoint (inv : LineColours s) (x : FormedPoint) : LineColours (s.takePoint x) := by
  have checked : LineColours (s.checkRevolution x.revolution) := by
    unfold State.checkRevolution
    split
    · exact inv
    · split
      · exact inv
      · exact inv.closeLine _
  unfold State.takePoint
  simp only
  split
  · exact checked.closeLine _
  · split
    · exact checked
    · split
      · exact checked.congr rfl
      · unfold State.maskPoint
        split
        · exact checked.congr rfl
        · exact checked.placePoint _

/-- An abandonment report ends the open line at most (R74). -/
theorem takeAbandonment (inv : LineColours s) : LineColours s.takeAbandonment := by
  have reported (n : Nat) : ∀ g ∈ (s.lnb.takeReport n).openLine, g ∈ s.lnb.openLine := by
    unfold Lnb.takeReport
    intro g
    split
    · exact id
    · split
      · nofun
      · exact id
  have kept (n : Nat) : (s.lnb.takeReport n).fifo = s.lnb.fifo ∧ (s.lnb.takeReport n).lineCounter = s.lnb.lineCounter := by
    unfold Lnb.takeReport
    split
    · exact ⟨rfl, rfl⟩
    · split <;> exact ⟨rfl, rfl⟩
  unfold State.takeAbandonment
  split
  · exact inv
  · rename_i n rest _
    exact inv.openLine_changed ⟨rfl, rfl, rfl, rfl⟩ rfl (kept n).1 (kept n).2
      (fun g hg => ⟨g, reported n g hg, rfl, id⟩)

end LineColours

end Sys2Proof.Machine

namespace Sys2Proof.Machine

/-! ### What a reclaim leaves of the pass in progress (R144) -/

/-- A first pass goes on, and so does a step on another line. -/
theorem State.reclaimHead_pass (s : State) (l : RingLine) :
    (s.reclaimHead l).clr.firstPassRunning = s.clr.firstPassRunning ∧
    (∀ x ∈ (s.reclaimHead l).clr.stepRunning, x ∈ s.clr.stepRunning ∧ x.line ≠ l.number) ∧
    ∀ n, n ≠ l.number → (s.reclaimHead l).clr.leftPending n = s.clr.leftPending n := by
  have pass : (s.reclaimHead l).clr.pass = (s.bothTold l).clr.pass := by rw [State.reclaimHead_clr]
  by_cases stays : ∀ x, s.clr.pass = some x → x.kind = .firstPass ∨ x.line ≠ l.number
  · have same : (s.reclaimHead l).clr.pass = s.clr.pass := pass.trans (State.bothTold_stays stays).1
    refine ⟨Clr.firstPassRunning_congr same, fun x running => ?_, fun n _ =>
      Clr.leftPending_congr (Clr.stepRunning_congr same) n⟩
    rw [Clr.stepRunning_congr same] at running
    refine ⟨running, (stays x ?_).resolve_left ?_⟩
    · exact (Option.filter_eq_some_iff.1 running).1
    · rw [← x.kind.isStep_eq_false_iff, Bool.not_eq_false]
      exact (Option.filter_eq_some_iff.1 running).2
  · push Not at stays
    obtain ⟨x, running, step, line⟩ := stays
    have cut : (s.reclaimHead l).clr.pass = none := pass.trans (State.bothTold_cut running step line).1
    refine ⟨?_, ?_, fun n other => ?_⟩
    · rw [Clr.firstPassRunning_of_none cut, Clr.firstPassRunning_of_step running step]
    · rw [Clr.stepRunning_of_none cut]
      nofun
    · rw [Clr.leftPending_other, Clr.leftPending_other]
      · rw [Clr.stepRunning_of_step running step]
        rintro _ ⟨⟩
        exact line ▸ other.symm
      · rw [Clr.stepRunning_of_none cut]
        nofun

/-- Line number `n` comes next into the closed-line list: it is above every number the ring holds, and below what LNB still
holds behind it. -/
structure NextLine (s : State) (n : Nat) : Prop where
  above : ∀ m ∈ s.ringNumbers, m < n
  numbered : n ≤ s.lnb.lineCounter
  items : ∀ x ∈ s.lnb.fifo, n < x.line
  openLine : ∀ h ∈ s.lnb.openLine, n < h.lineNumber

theorem State.lineView_commitHead (s : State) (l : RingLine) : (s.commitHead l).lineView = (s.lineMoved l).lineView := by
  rw [State.commitHead_rest]
  rfl

namespace LineColours

variable {s t : State}

/-! ### The ring writer (R83 to R92) -/

/-- The oldest committed line is reclaimed (R87): CLR forgets it, and a step on it is cut. -/
theorem reclaimHead (inv : LineColours s) {l : RingLine} {rest : List RingLine} (head : s.rng.committed = l :: rest) :
    LineColours (s.reclaimHead l) := by
  obtain ⟨first, step, left⟩ := s.reclaimHead_pass l
  have committed : (s.reclaimHead l).rng.committed = rest := State.committed_reclaimHead head
  have lines := s.reclaimHead_committed l
  have lnb : (s.reclaimHead l).lnb = s.lnb := by
    rw [State.reclaimHead_rest]
    exact State.strReclaim_lnb _ _
  have queue : (s.reclaimHead l).clr.colourQueue = s.clr.colourQueue := by rw [State.reclaimHead_clr]
  have list : (s.reclaimHead l).clr.pendingList = s.clr.pendingList.filter (fun m => decide (m ≠ l.number)) := by
    rw [State.reclaimHead_clr]
  have stays {n : Nat} (mem : n ∈ s.rng.committed.map RingLine.number) (other : n ≠ l.number) :
      n ∈ rest.map RingLine.number := by
    rw [head] at mem
    exact (List.mem_cons.1 mem).resolve_left other
  have ascending := inv.ascending
  rw [head, List.map_cons, List.cons_append, List.pairwise_cons] at ascending
  obtain ⟨first_below, ascending⟩ := ascending
  constructor
  case ascending =>
    rw [committed, lines.closed]
    exact ascending
  case behind =>
    intro n mem
    rw [lnb]
    refine inv.behind n ?_
    rw [State.mem_ringNumbers, committed, lines.closed, queue, first] at mem
    rw [State.mem_ringNumbers, head]
    exact mem.imp_left (List.mem_cons_of_mem _)
  case listed =>
    intro n mem
    rw [list] at mem
    obtain ⟨mem, other⟩ := List.mem_filter.1 mem
    rw [committed]
    exact stays (inv.listed n mem) (of_decide_eq_true other)
  case stepOn =>
    intro x running
    obtain ⟨running, other⟩ := step x running
    rw [committed]
    exact stays (inv.stepOn x running) other
  case closed =>
    rw [lines.closed]
    exact fun k mem => ClosedLine.counted_congr_running first (inv.closed k mem)
  case committed =>
    rw [committed]
    intro k mem
    have above : l.number < k.number := first_below _ (List.mem_append_left _ (List.mem_map_of_mem mem))
    rw [left _ above.ne']
    exact inv.committed k (head ▸ List.mem_cons_of_mem _ mem)
  case colouring =>
    rw [lines.closed, queue, first]
    exact inv.colouring
  case queuedOnce =>
    rw [queue]
    exact inv.queuedOnce
  case written =>
    rw [lines.openLine]
    exact inv.written
  all_goals rw [lnb]
  exacts [inv.items, inv.itemsNumbered, inv.openNumbered, inv.finished, inv.openUncoloured]

theorem reclaimFor (inv : LineColours s) (bytes k : Nat) : LineColours (State.reclaimFor bytes k s) := by
  induction k generalizing s with
  | zero => exact inv
  | succ k ih =>
    unfold State.reclaimFor
    split
    · exact inv
    · split
      · exact inv
      · rename_i l rest head
        split
        · exact ih (inv.reclaimHead head)
        · exact inv

theorem admitBytes (inv : LineColours s) (bytes : Nat) : LineColours (s.admitBytes bytes).1 := inv.reclaimFor bytes _

/-- The ring's open line takes new values, none of its points PENDING, or is gone. -/
theorem ringOpen_changed (inv : LineColours s) (view : t.lineView = { s.lineView with ringOpen := t.rng.openLine })
    (written : ∀ o ∈ t.rng.openLine, countPending o.points = 0) : LineColours t := by
  have same : LineColours { t with rng := { t.rng with openLine := s.rng.openLine } } := by
    refine inv.congr ?_
    obtain ⟨committed, closed, -, fifo, openLine, lineCounter, colourQueue, pass, pendingList⟩ := LineView.mk.inj view
    exact LineView.mk.injEq .. ▸ ⟨committed, closed, rfl, fifo, openLine, lineCounter, colourQueue, pass, pendingList⟩
  exact ⟨same.ascending, same.behind, same.items, same.itemsNumbered, same.openNumbered, same.queuedOnce, same.colouring,
    same.listed, same.stepOn, same.finished, same.openUncoloured, written, same.closed, same.committed⟩

theorem abandon (inv : LineColours s) (n lost : Nat) : LineColours (s.abandon n lost) :=
  inv.ringOpen_changed rfl nofun

theorem openItem (inv : LineColours s) (n : Nat) : LineColours (s.openItem n) := by
  have begun : LineColours { s with rng := { s.rng with discarding := none } } := inv.congr rfl
  rw [State.openItem_eq]
  split
  · refine (begun.admitBytes 48).ringOpen_changed rfl ?_
    rintro _ ⟨⟩
    rfl
  · exact (begun.admitBytes 48).abandon _ _

theorem pointItem (inv : LineColours s) (n : Nat) (p : Point) : LineColours (s.pointItem n p) := by
  cases line : s.rng.openLine with
  | none =>
    rw [State.pointItem, line]
    exact inv
  | some o =>
    rw [State.pointItem_eq line]
    split
    · refine (inv.admitBytes p.size).ringOpen_changed rfl ?_
      rintro _ ⟨⟩
      have none_pending := inv.written o line
      unfold countPending at none_pending ⊢
      rw [List.countP_append, none_pending]
      rfl
    · exact (inv.admitBytes p.size).abandon _ _

/-- The head of the closed-line list commits, COLOURED or SKIPPED (R92, R138). -/
theorem commitHead (inv : LineColours s) {l : ClosedLine} {rest : List ClosedLine} (head : s.rng.closed = l :: rest)
    (ready : l.state ≠ .colouring) : LineColours (s.commitHead l.line) := by
  refine LineColours.congr ?_ (s.lineView_commitHead l.line)
  have headMem : l ∈ s.rng.closed := head ▸ List.mem_cons_self
  have ascending := inv.ascending
  rw [head, List.map_cons] at ascending
  have committed : (s.lineMoved l.line).rng.committed.map RingLine.number =
      s.rng.committed.map RingLine.number ++ [l.line.number] := List.map_append
  have closed : (s.lineMoved l.line).rng.closed = rest := by
    show s.rng.closed.tail = rest
    rw [head, List.tail_cons]
  have clr : (s.lineMoved l.line).clr = _ := Clr.joinPending_eq s.clr l.line
  have list : (s.lineMoved l.line).clr.pendingList =
      s.clr.pendingList ++ if l.line.header.colour = .pending then [l.line.number] else [] := by rw [clr]
  have queue : (s.lineMoved l.line).clr.colourQueue = s.clr.colourQueue := by rw [clr]
  have pass : (s.lineMoved l.line).clr.pass = s.clr.pass := by rw [clr]
  have first := Clr.firstPassRunning_congr pass
  have step := Clr.stepRunning_congr pass
  constructor
  case ascending =>
    rw [committed, closed, List.append_assoc]
    exact ascending
  case behind =>
    intro n mem
    refine inv.behind n ?_
    rw [State.mem_ringNumbers, committed, closed, queue, first] at mem
    rw [State.mem_ringNumbers, head]
    simp only [List.mem_append, List.map_cons, List.mem_cons] at mem ⊢
    tauto
  case listed =>
    intro n mem
    rw [committed, List.mem_append]
    rw [list, List.mem_append] at mem
    refine mem.imp (inv.listed n) (fun joined => ?_)
    split at joined
    · exact joined
    · cases joined
  case stepOn =>
    rw [step, committed]
    exact fun x running => List.mem_append_left _ (inv.stepOn x running)
  case closed =>
    rw [closed]
    exact fun k mem => ClosedLine.counted_congr_running first (inv.closed k (head ▸ List.mem_cons_of_mem _ mem))
  case committed =>
    intro k mem
    rw [Clr.leftPending_congr step]
    rcases List.mem_append.1 mem with mem | mem
    · exact inv.committed k mem
    · obtain rfl := List.mem_singleton.1 mem
      have below := (List.pairwise_append.1 ascending).2.2
      have none_left : s.clr.leftPending l.line.number = 0 := Clr.leftPending_other fun x running =>
        (below _ (inv.stepOn x running) _ List.mem_cons_self).ne
      obtain ⟨-, coloured, skipped⟩ := inv.closed l headMem
      show l.line.header.agrees ∧
        l.line.header.pendingCount = countPending l.line.points + s.clr.leftPending l.line.number
      rw [none_left, Nat.add_zero]
      cases state : l.state with
      | colouring => exact absurd state ready
      | coloured => exact coloured state
      | skipped =>
        obtain ⟨⟨settled, zero⟩, none_pending⟩ := skipped state
        exact ⟨⟨fun _ => zero, fun _ => settled⟩, by rw [zero, none_pending]⟩
  case colouring =>
    rw [closed, queue, first]
    exact fun k mem => inv.colouring k (head ▸ List.mem_cons_of_mem _ mem)
  case queuedOnce =>
    rw [queue]
    exact inv.queuedOnce
  exacts [inv.items, inv.itemsNumbered, inv.openNumbered, inv.finished, inv.openUncoloured, inv.written]

theorem commitReady (inv : LineColours s) : LineColours s.commitReady := by
  have commits (k : Nat) {s : State} (inv : LineColours s) : LineColours (State.commitReadyIn k s) := by
    induction k generalizing s with
    | zero => exact inv
    | succ k ih =>
      unfold State.commitReadyIn
      split
      · exact inv
      · rename_i l rest head
        split
        · rename_i ready
          exact ih (inv.commitHead head (fun colouring => by rw [colouring] at ready; cases ready))
        · exact inv
  exact commits _ inv

/-- A line joins the closed-line list, handed to CLR or SKIPPED (R90, R91, R135). -/
theorem line_closed (inv : LineColours s) {l : ClosedLine} (next : NextLine s l.line.number) {queued : List Nat}
    (view : t.lineView = { s.lineView with
      closed := s.rng.closed ++ [l], ringOpen := none, colourQueue := s.clr.colourQueue ++ queued })
    (handed : queued = [l.line.number] ∧ l.state = .colouring ∨ queued = [] ∧ l.state = .skipped)
    (uncoloured : l.line.header.uncoloured) (none_pending : countPending l.line.points = 0) : LineColours t := by
  obtain ⟨committed, closed, ringOpen, fifo, openLine, lineCounter, queue, pass, pendingList⟩ := LineView.mk.inj view
  have committed : t.rng.committed = s.rng.committed := committed
  have first : t.clr.firstPassRunning = s.clr.firstPassRunning := Clr.firstPassRunning_congr pass
  have step : t.clr.stepRunning = s.clr.stepRunning := Clr.stepRunning_congr pass
  have queued_eq (n : Nat) (mem : n ∈ queued) : n = l.line.number := by
    rcases handed with ⟨rfl, -⟩ | ⟨rfl, -⟩
    · exact List.mem_singleton.1 mem
    · cases mem
  have below {n : Nat} (held : n ∈ s.rng.committed.map RingLine.number ∨ n ∈ s.rng.closed.map (fun l => l.line.number) ∨
      n ∈ s.clr.colourQueue ∨ ∃ x ∈ s.clr.firstPassRunning, x.line = n) : n < l.line.number :=
    next.above n ((s.mem_ringNumbers n).2 held)
  constructor
  case ascending =>
    rw [committed, closed, List.map_append, ← List.append_assoc]
    refine List.pairwise_append.2 ⟨inv.ascending, List.pairwise_singleton _ _, fun n mem m hm => ?_⟩
    obtain rfl := List.mem_singleton.1 hm
    exact below ((List.mem_append.1 mem).imp_right .inl)
  case behind =>
    intro n mem
    rw [fifo, openLine, lineCounter]
    have old_or_new : n ∈ s.ringNumbers ∨ n = l.line.number := by
      rw [State.mem_ringNumbers, committed, closed, queue, first] at mem
      rw [State.mem_ringNumbers]
      simp only [List.map_append, List.map_cons, List.map_nil, List.mem_append, List.mem_singleton] at mem
      rcases mem with mem | (mem | new) | (mem | mem) | mem
      · exact .inl (.inl mem)
      · exact .inl (.inr (.inl mem))
      · exact .inr new
      · exact .inl (.inr (.inr (.inl mem)))
      · exact .inr (queued_eq n mem)
      · exact .inl (.inr (.inr (.inr mem)))
    rcases old_or_new with mem | rfl
    · exact inv.behind n mem
    · exact ⟨next.numbered, next.items, next.openLine⟩
  case queuedOnce =>
    rw [queue]
    rcases handed with ⟨rfl, -⟩ | ⟨rfl, -⟩
    · refine List.nodup_append.2 ⟨inv.queuedOnce, List.nodup_singleton _, fun n mem m hm => ?_⟩
      obtain rfl := List.mem_singleton.1 hm
      exact (below (.inr (.inr (.inl mem)))).ne
    · rw [List.append_nil]
      exact inv.queuedOnce
  case colouring =>
    rw [closed, queue, first]
    intro k mem held
    rcases List.mem_append.1 mem with mem | mem
    · refine inv.colouring k mem (held.imp_left fun listed => ?_)
      refine (List.mem_append.1 listed).resolve_right fun new => ?_
      exact (below (.inr (.inl (List.mem_map_of_mem mem)))).ne (queued_eq _ new)
    · obtain rfl := List.mem_singleton.1 mem
      rcases handed with ⟨-, colouring⟩ | ⟨rfl, -⟩
      · exact colouring
      · rw [List.append_nil] at held
        refine absurd (below (n := k.line.number) ?_) (Nat.lt_irrefl _)
        refine .inr (.inr (held.imp_right fun running => ?_))
        obtain ⟨x, running, line⟩ := Option.map_eq_some_iff.1 running
        exact ⟨x, running, line⟩
  case closed =>
    rw [closed]
    intro k mem
    refine ClosedLine.counted_congr_running first ?_
    rcases List.mem_append.1 mem with mem | mem
    · exact inv.closed k mem
    · obtain rfl := List.mem_singleton.1 mem
      have fresh : s.clr.firstPassOn k.line.number = ⟨k.line.number, .firstPass, 0, 0⟩ :=
        Clr.firstPassOn_other fun x running => (below (.inr (.inr (.inr ⟨x, running, rfl⟩)))).ne
      refine ⟨fun _ => ?_, fun coloured => ?_, fun _ => ⟨uncoloured, none_pending⟩⟩
      · rw [fresh]
        exact ⟨uncoloured, none_pending, none_pending⟩
      · rcases handed with ⟨-, state⟩ | ⟨-, state⟩ <;> rw [state] at coloured <;> cases coloured
  case committed =>
    rw [committed]
    intro k mem
    rw [Clr.leftPending_congr step]
    exact inv.committed k mem
  case listed =>
    rw [committed, pendingList]
    exact inv.listed
  case stepOn =>
    rw [committed, step]
    exact inv.stepOn
  case written =>
    rw [ringOpen]
    nofun
  all_goals
    try rw [fifo]
    try rw [openLine]
    try rw [lineCounter]
  exacts [inv.items, inv.itemsNumbered, inv.openNumbered, inv.finished, inv.openUncoloured]

theorem closeItem (inv : LineColours s) {h : LineHeader} (next : NextLine s h.lineNumber) (uncoloured : h.uncoloured) :
    LineColours (s.closeItem h) := by
  cases line : s.rng.openLine with
  | none =>
    rw [State.closeItem, line]
    exact inv
  | some o =>
    rw [State.closeItem_eq line, State.closeNotice]
    have none_pending := inv.written o line
    by_cases room : s.clr.colourQueue.length < 16
    · rw [Clr.takeLine_room room]
      exact (inv.line_closed (l := ⟨⟨h, h, o.points⟩, .colouring⟩) next rfl (.inl ⟨rfl, rfl⟩) uncoloured
        none_pending).commitReady
    · rw [Clr.takeLine_full (Nat.le_of_not_lt room)]
      refine (inv.line_closed
        (l := ⟨⟨{ h with flags := { h.flags with colourSkipped := true } }, h, o.points⟩, .skipped⟩) (queued := []) next ?_
        (.inr ⟨rfl, rfl⟩) uncoloured none_pending).commitReady
      rw [List.append_nil]
      rfl

/-- The oldest item leaves the FIFO. -/
theorem itemTaken (inv : LineColours s) {x : FifoItem} {rest : List FifoItem} (fifo : s.lnb.fifo = x :: rest) :
    LineColours (s.itemTaken rest) := by
  have stays {y : FifoItem} (mem : y ∈ rest) : y ∈ s.lnb.fifo := fifo ▸ List.mem_cons_of_mem _ mem
  have items := inv.items
  rw [fifo, List.pairwise_cons] at items
  refine inv.of_lnb ⟨rfl, rfl, rfl, rfl⟩ rfl (fun n mem => ?_) items.2 (fun y mem => inv.itemsNumbered y (stays mem))
    (fun h hh => ?_) (fun y mem => inv.finished y (stays mem)) inv.openUncoloured
  · obtain ⟨numbered, behind, openBehind⟩ := inv.behind n mem
    exact ⟨numbered, fun y mem => behind y (stays mem), openBehind⟩
  · obtain ⟨numbered, below⟩ := inv.openNumbered h hh
    exact ⟨numbered, fun y mem => below y (stays mem)⟩

/-- A close notice at the head of the FIFO names the next line of the closed-line list. -/
theorem nextLine (inv : LineColours s) {n : Nat} {h : LineHeader} {rest : List FifoItem}
    (fifo : s.lnb.fifo = .closeNotice n h :: rest) : NextLine (s.itemTaken rest) n := by
  have head : FifoItem.closeNotice n h ∈ s.lnb.fifo := fifo ▸ List.mem_cons_self
  have items := inv.items
  rw [fifo, List.pairwise_cons] at items
  exact ⟨fun m mem => (inv.behind m mem).2.1 _ head, inv.itemsNumbered _ head, fun y mem => (items.1 y mem).2 rfl,
    fun g hg => ((inv.openNumbered g hg).2 _ head).2 rfl⟩

theorem writeItem (inv : LineColours s) : LineColours s.writeItem := by
  cases fifo : s.lnb.fifo with
  | nil =>
    rw [State.writeItem, fifo]
    exact inv
  | cons x rest =>
    have taken := inv.itemTaken fifo
    cases discards : s.rng.discards x with
    | some d =>
      rw [State.writeItem_discards fifo discards]
      refine taken.congr ?_
      unfold State.discardItem
      split
      · rfl
      · rfl
      · split <;> rfl
    | none =>
      rw [State.writeItem_keeps fifo discards]
      cases x with
      | openNotice n => exact taken.openItem n
      | point n p => exact taken.pointItem n p
      | closeNotice n h =>
        obtain ⟨number, uncoloured⟩ := inv.finished _ (fifo ▸ List.mem_cons_self) h rfl
        have next := inv.nextLine fifo
        have number : h.lineNumber = n := number
        rw [← number] at next
        exact taken.closeItem next uncoloured

end LineColours

end Sys2Proof.Machine

namespace Sys2Proof.Machine

/-! ### The free engine chooses (R136, R139) -/

theorem Clr.endWork_pass (c : Clr) : c.endWork.pass = c.pass := by
  unfold Clr.endWork
  split
  · rfl
  · split <;> rfl

theorem Clr.takeUp_pass {c d : Clr} (taken : c.takeUp = some d) : d.pass = c.pass := by
  unfold Clr.takeUp at taken
  simp only at taken
  split at taken
  · cases taken
    rfl
  · split at taken <;> cases taken
    rfl

/-- What a choice makes of CLR: work is taken up and ended, and at most a pass begins, on a line that waits for it. -/
structure Chooses (c d : Clr) : Prop where
  slots : d.slots = c.slots
  sectors : d.sectors = c.sectors
  colourQueue : d.colourQueue = c.colourQueue
  pendingList : d.pendingList = c.pendingList
  backfillQueue : d.backfillQueue.length ≤ c.backfillQueue.length
  pass : d.pass = c.pass ∨ c.pass = none ∧ ∃ x : Pass, d.pass = some x ∧ x.done = 0 ∧ x.tally = 0 ∧
    (x.kind = .firstPass ∧ x.line ∈ c.colourQueue ∨ x.kind ≠ .firstPass ∧ x.line ∈ c.pendingList)

namespace Chooses

theorem refl (c : Clr) : Chooses c c := ⟨rfl, rfl, rfl, rfl, Nat.le_refl _, .inl rfl⟩

theorem trans {c d e : Clr} (h : Chooses c d) (k : Chooses d e) : Chooses c e := by
  refine ⟨k.slots.trans h.slots, k.sectors.trans h.sectors, k.colourQueue.trans h.colourQueue,
    k.pendingList.trans h.pendingList, k.backfillQueue.trans h.backfillQueue, ?_⟩
  have chosen := k.pass
  rw [h.colourQueue, h.pendingList] at chosen
  rcases chosen with same | ⟨idle, begun⟩
  · rw [same]
    exact h.pass
  · rcases h.pass with same | ⟨-, x, running, -⟩
    · exact .inr ⟨same ▸ idle, begun⟩
    · rw [idle] at running
      cases running

theorem endWork (c : Clr) : Chooses c c.endWork := by
  unfold Clr.endWork
  split
  · exact .refl c
  · split
    · exact ⟨rfl, rfl, rfl, rfl, Nat.le_refl _, .inl rfl⟩
    · exact .refl c

theorem takeUp {c d : Clr} (taken : c.takeUp = some d) : Chooses c d := by
  unfold Clr.takeUp at taken
  simp only at taken
  split at taken
  · cases taken
    exact ⟨rfl, rfl, rfl, rfl, Nat.zero_le _, .inl rfl⟩
  · split at taken
    · cases taken
    · rename_i e rest queue
      cases taken
      refine ⟨rfl, rfl, rfl, rfl, ?_, .inl rfl⟩
      rw [queue]
      exact Nat.le_succ _

theorem chooseIn (n : Nat) {c : Clr} (idle : c.pass = none) : Chooses c (c.chooseIn n) := by
  induction n generalizing c with
  | zero => exact .refl c
  | succ n ih =>
    have then_choose {d : Clr} (h : Chooses c d) (same : d.pass = c.pass) : Chooses c (d.chooseIn n) :=
      h.trans (ih (same.trans idle))
    unfold Clr.chooseIn
    split
    · rename_i line _ queue
      exact ⟨rfl, rfl, rfl, rfl, Nat.le_refl _,
        .inr ⟨idle, _, rfl, rfl, rfl, .inl ⟨rfl, queue ▸ List.mem_cons_self⟩⟩⟩
    · split
      · rename_i w _
        split
        · rename_i line next
          refine ⟨rfl, rfl, rfl, rfl, Nat.le_refl _, .inr ⟨idle, _, rfl, rfl, rfl, .inr ⟨?_, ?_⟩⟩⟩
          · cases w.kind <;> exact PassKind.noConfusion
          · unfold Work.next at next
            split at next
            · cases next
            · exact List.mem_of_find?_eq_some next
        · exact then_choose ⟨rfl, rfl, rfl, rfl, Nat.le_refl _, .inl rfl⟩ rfl
      · split
        · exact .refl c
        · rename_i d taken
          exact then_choose ((takeUp taken).trans (endWork d)) (d.endWork_pass.trans (Clr.takeUp_pass taken))

theorem choose (c : Clr) : Chooses c c.choose := by
  unfold Clr.choose
  split
  · exact .refl c
  · rename_i idle
    exact (endWork c).trans (chooseIn _ (c.endWork_pass.trans idle))

end Chooses

namespace LineColours

variable {s t : State}

/-! ### CLR's work (R136 to R144) -/

/-- CLR's work leaves LNB, the numbers of the lines and the ring's open line; it takes numbers out of its lists and begins
a pass only on a line that waits for it. What it makes of the states and the counts decides. -/
theorem of_clr (inv : LineColours s) (lnb : t.lnb = s.lnb) (ringOpen : t.rng.openLine = s.rng.openLine)
    (numbers : t.rng.committed.map RingLine.number = s.rng.committed.map RingLine.number)
    (closedNumbers : t.rng.closed.map (fun l => l.line.number) = s.rng.closed.map (fun l => l.line.number))
    (queue : t.clr.colourQueue.Sublist s.clr.colourQueue) (list : t.clr.pendingList ⊆ s.clr.pendingList)
    (first : ∀ x ∈ t.clr.firstPassRunning, x.line ∈ s.clr.colourQueue ∨ ∃ y ∈ s.clr.firstPassRunning, y.line = x.line)
    (step : ∀ x ∈ t.clr.stepRunning, x.line ∈ s.clr.pendingList ∨ ∃ y ∈ s.clr.stepRunning, y.line = x.line)
    (colouring : ∀ l ∈ t.rng.closed,
      l.line.number ∈ t.clr.colourQueue ∨ t.clr.firstPassRunning.map Pass.line = some l.line.number → l.state = .colouring)
    (closed : ∀ l ∈ t.rng.closed, l.counted t.clr)
    (committed : ∀ l ∈ t.rng.committed, l.header.agrees ∧
      l.header.pendingCount = countPending l.points + t.clr.leftPending l.number) : LineColours t := by
  constructor
  case ascending =>
    rw [numbers, closedNumbers]
    exact inv.ascending
  case behind =>
    intro n mem
    rw [lnb]
    refine inv.behind n ?_
    rw [State.mem_ringNumbers, numbers, closedNumbers] at mem
    rw [State.mem_ringNumbers]
    rcases mem with mem | mem | mem | ⟨x, running, line⟩
    · exact .inl mem
    · exact .inr (.inl mem)
    · exact .inr (.inr (.inl (queue.subset mem)))
    · rw [← line]
      exact .inr (.inr (first x running))
  case queuedOnce => exact inv.queuedOnce.sublist queue
  case colouring => exact colouring
  case listed =>
    rw [numbers]
    exact fun n mem => inv.listed n (list mem)
  case stepOn =>
    rw [numbers]
    intro x running
    rcases step x running with waits | ⟨y, on, line⟩
    · exact inv.listed _ waits
    · rw [← line]
      exact inv.stepOn y on
  case written =>
    rw [ringOpen]
    exact inv.written
  case closed => exact closed
  case committed => exact committed
  all_goals rw [lnb]
  exacts [inv.items, inv.itemsNumbered, inv.openNumbered, inv.finished, inv.openUncoloured]

/-- A pass that begins has dealt with no point and counted none, on a line that waits for it. -/
theorem chooseWork (inv : LineColours s) : LineColours s.chooseWork := by
  have chosen := Chooses.choose s.clr
  have queue : s.chooseWork.clr.colourQueue = s.clr.colourQueue := chosen.colourQueue
  have list : s.chooseWork.clr.pendingList = s.clr.pendingList := chosen.pendingList
  rcases chosen.pass with same | ⟨idle, x, running, done, tally, waits⟩
  · refine inv.congr ?_
    unfold State.lineView
    rw [queue, list, show s.chooseWork.clr.pass = s.clr.pass from same]
    rfl
  · have running : s.chooseWork.clr.pass = some x := running
    have noFirst := Clr.firstPassRunning_of_none idle
    have noStep := Clr.stepRunning_of_none idle
    have first_on (n : Nat) : s.chooseWork.clr.firstPassOn n = s.clr.firstPassOn n := by
      rw [Clr.firstPassOn_other (c := s.clr) (by rw [noFirst]; nofun)]
      rcases waits with ⟨kind, -⟩ | ⟨kind, -⟩
      · have first := Clr.firstPassRunning_of_first running kind
        by_cases line : x.line = n
        · rw [← line, Clr.firstPassOn_same first, ← done, ← kind]
          obtain ⟨_, _, _, _⟩ := x
          simp_all
        · exact Clr.firstPassOn_other (by rw [first]; rintro _ ⟨⟩; exact line)
      · exact Clr.firstPassOn_other (by rw [Clr.firstPassRunning_of_step running kind]; nofun)
    have left (n : Nat) : s.chooseWork.clr.leftPending n = s.clr.leftPending n := by
      rw [Clr.leftPending_other (c := s.clr) (by rw [noStep]; nofun)]
      rcases waits with ⟨kind, -⟩ | ⟨kind, -⟩
      · exact Clr.leftPending_other (by rw [Clr.stepRunning_of_first running kind]; nofun)
      · have step := Clr.stepRunning_of_step running kind
        by_cases line : x.line = n
        · rw [← line, Clr.leftPending_same step, tally]
        · exact Clr.leftPending_other (by rw [step]; rintro _ ⟨⟩; exact line)
    have first_queued : ∀ y ∈ s.chooseWork.clr.firstPassRunning, y.line ∈ s.clr.colourQueue := by
      intro y on
      rcases waits with ⟨kind, mem⟩ | ⟨kind, -⟩
      · rw [Clr.firstPassRunning_of_first running kind] at on
        cases on
        exact mem
      · rw [Clr.firstPassRunning_of_step running kind] at on
        cases on
    have step_listed : ∀ y ∈ s.chooseWork.clr.stepRunning, y.line ∈ s.clr.pendingList := by
      intro y on
      rcases waits with ⟨kind, -⟩ | ⟨kind, mem⟩
      · rw [Clr.stepRunning_of_first running kind] at on
        cases on
      · rw [Clr.stepRunning_of_step running kind] at on
        cases on
        exact mem
    refine inv.of_clr rfl rfl rfl rfl (queue ▸ List.Sublist.refl _) (list ▸ List.Subset.refl _)
      (fun y on => .inl (first_queued y on)) (fun y on => .inl (step_listed y on)) (fun l mem held => ?_)
      (fun l mem => ClosedLine.counted_congr (first_on _) (inv.closed l mem)) (fun l mem => ?_)
    · refine inv.colouring l mem (.inl (held.elim (queue ▸ ·) fun on => ?_))
      obtain ⟨y, on, line⟩ := Option.map_eq_some_iff.1 on
      exact line ▸ first_queued y on
    · rw [left]
      exact inv.committed l mem

end LineColours
end Sys2Proof.Machine

namespace Sys2Proof.Machine

/-! ### The PENDING points of a line as one record is written (R118) -/

/-- What a record adds to the number of PENDING points. -/
def Point.pends (p : Point) : Nat := if p.colourState = .pending then 1 else 0

theorem countPending_cons (p : Point) (ps : List Point) : countPending (p :: ps) = countPending ps + p.pends := by
  unfold countPending Point.pends
  rw [List.countP_cons]
  simp only [decide_eq_true_eq]

theorem countPending_modify (f : Point → Point) {ps : List Point} {i : Nat} {p : Point} (at_i : ps[i]? = some p) :
    countPending (ps.modify i f) + p.pends = countPending ps + (f p).pends := by
  induction ps generalizing i with
  | nil => cases at_i
  | cons q qs ih =>
    cases i with
    | zero =>
      obtain rfl := Option.some.inj at_i
      rw [List.modify_zero_cons, countPending_cons, countPending_cons]
      omega
    | succ i =>
      have rest := ih at_i
      rw [List.modify_succ_cons, countPending_cons, countPending_cons]
      omega

/-- A first pass counts the PENDING points it makes; a step counts the points that it takes out of PENDING. -/
theorem PassKind.counts_firstPass (p : Point) : PassKind.counts .firstPass p = p.pends := rfl

theorem PassKind.counts_step {k : PassKind} (step : k ≠ .firstPass) (p : Point) : k.counts p + p.pends = 1 := by
  unfold PassKind.counts Point.pends
  cases k with
  | firstPass => exact absurd rfl step
  | task e => by_cases pending : p.colourState = .pending <;> simp [pending]
  | sweep => by_cases pending : p.colourState = .pending <;> simp [pending]

/-- A step evaluates PENDING points only (R142, R143). -/
theorem PassKind.pends_of_evaluates {k : PassKind} (step : k ≠ .firstPass) {p : Point} (evaluated : k.evaluates p = true) :
    p.pends = 1 := by
  have pending : p.colourState = .pending := by
    cases k with
    | firstPass => exact absurd rfl step
    | task e => exact of_decide_eq_true (Bool.and_eq_true_iff.1 evaluated).1
    | sweep => exact of_decide_eq_true evaluated
  rw [Point.pends, if_pos pending]

/-! ### The line a pass runs on -/

theorem State.passLine_first {s : State} {x : Pass} (first : x.kind = .firstPass) {l : RingLine}
    (line : s.passLine x = some l) : ∃ c ∈ s.rng.closed, c.line = l ∧ l.number = x.line := by
  unfold State.passLine at line
  rw [first] at line
  obtain ⟨c, found, rfl⟩ := Option.map_eq_some_iff.1 line
  exact ⟨c, List.mem_of_find?_eq_some found, rfl, of_decide_eq_true (List.find?_some (p := fun l : ClosedLine => decide (l.line.number = x.line)) found)⟩

theorem State.passLine_step {s : State} {x : Pass} (step : x.kind ≠ .firstPass) : s.passLine x = s.rng.lookup x.line := by
  unfold State.passLine
  cases kind : x.kind with
  | firstPass => exact absurd kind step
  | task e => rfl
  | sweep => rfl

theorem Rng.lookup_some {r : Rng} {n : Nat} {l : RingLine} (found : r.lookup n = some l) : l ∈ r.committed ∧ l.number = n :=
  ⟨List.mem_of_find?_eq_some found, of_decide_eq_true (List.find?_some (p := fun l : RingLine => decide (l.number = n)) found)⟩

theorem Rng.mapPassLine_first (r : Rng) {x : Pass} (first : x.kind = .firstPass) (f : RingLine → RingLine) :
    r.mapPassLine x f = r.mapClosed x.line (fun l => { l with line := f l.line }) := by
  rw [Rng.mapPassLine, first]

theorem Rng.mapPassLine_step (r : Rng) {x : Pass} (step : x.kind ≠ .firstPass) (f : RingLine → RingLine) :
    r.mapPassLine x f = r.mapCommitted x.line f := by
  unfold Rng.mapPassLine
  cases kind : x.kind with
  | firstPass => exact absurd kind step
  | task e => rfl
  | sweep => rfl

theorem Rng.mapClosed_numbers (r : Rng) (n : Nat) {f : ClosedLine → ClosedLine} (hf : ∀ l, (f l).line.number = l.line.number) :
    (r.mapClosed n f).closed.map (fun l => l.line.number) = r.closed.map (fun l => l.line.number) := by
  rw [Rng.mapClosed, List.map_map]
  refine List.map_congr_left fun l _ => ?_
  simp only [Function.comp_apply]
  split
  · exact hf l
  · rfl

theorem Rng.mapCommitted_numbers (r : Rng) (n : Nat) {f : RingLine → RingLine} (hf : ∀ l, (f l).number = l.number) :
    (r.mapCommitted n f).committed.map RingLine.number = r.committed.map RingLine.number := by
  rw [Rng.mapCommitted, List.map_map]
  refine List.map_congr_left fun l _ => ?_
  simp only [Function.comp_apply]
  split
  · exact hf l
  · rfl

theorem Rng.mem_mapClosed {r : Rng} {n : Nat} {f : ClosedLine → ClosedLine} {k : ClosedLine} :
    k ∈ (r.mapClosed n f).closed ↔ ∃ l ∈ r.closed, k = if l.line.number = n then f l else l := by
  rw [Rng.mapClosed, List.mem_map]
  exact exists_congr fun _ => and_congr_right fun _ => eq_comm

theorem Rng.mem_mapCommitted {r : Rng} {n : Nat} {f : RingLine → RingLine} {k : RingLine} :
    k ∈ (r.mapCommitted n f).committed ↔ ∃ l ∈ r.committed, k = if l.number = n then f l else l := by
  rw [Rng.mapCommitted, List.mem_map]
  exact exists_congr fun _ => and_congr_right fun _ => eq_comm

namespace LineColours

variable {s t : State}

/-! ### A pass deals with points and ends (R137, R142) -/

/-- A first pass goes on, or has ended: its line alone changes, and keeps its number. -/
theorem of_firstPass (inv : LineColours s) {x : Pass} (running : s.clr.pass = some x) (first : x.kind = .firstPass)
    {f : ClosedLine → ClosedLine} (rng : t.rng = s.rng.mapClosed x.line f) (lnb : t.lnb = s.lnb)
    (list : t.clr.pendingList = s.clr.pendingList)
    (goesOn : t.clr.colourQueue = s.clr.colourQueue ∧
        (∃ y, t.clr.pass = some y ∧ y.kind = .firstPass ∧ y.line = x.line) ∧ (∀ l, (f l).state = l.state) ∨
      t.clr.colourQueue = s.clr.colourQueue.erase x.line ∧ t.clr.pass = none)
    (number : ∀ l, (f l).line.number = l.line.number)
    (counted : ∀ l ∈ s.rng.closed, l.line.number = x.line → l.state = .colouring → (f l).counted t.clr) :
    LineColours t := by
  have on : s.clr.firstPassRunning = some x := Clr.firstPassRunning_of_first running first
  have noStep : s.clr.stepRunning = none := Clr.stepRunning_of_first running first
  have runs : ∀ y ∈ t.clr.firstPassRunning, y.line = x.line := by
    rintro y hy
    rcases goesOn with ⟨-, ⟨z, pass, kind, line⟩, -⟩ | ⟨-, pass⟩
    · rw [Clr.firstPassRunning_of_first pass kind] at hy
      cases hy
      exact line
    · rw [Clr.firstPassRunning_of_none pass] at hy
      cases hy
  have noStep' : t.clr.stepRunning = none := by
    rcases goesOn with ⟨-, ⟨y, pass, kind, -⟩, -⟩ | ⟨-, pass⟩
    · exact Clr.stepRunning_of_first pass kind
    · exact Clr.stepRunning_of_none pass
  have queue : t.clr.colourQueue.Sublist s.clr.colourQueue := by
    rcases goesOn with ⟨queue, -⟩ | ⟨queue, -⟩
    · rw [queue]
    · rw [queue]
      exact List.erase_sublist
  have onLine {l : ClosedLine} (mem : l ∈ s.rng.closed) (line : l.line.number = x.line) : l.state = .colouring :=
    inv.colouring l mem (.inr (by rw [on, line]; rfl))
  refine inv.of_clr lnb (by rw [rng]; rfl) (by rw [rng]; rfl) (by rw [rng]; exact s.rng.mapClosed_numbers _ number) queue
    (list ▸ List.Subset.refl _) (fun y hy => .inr ⟨x, on, (runs y hy).symm⟩) (by rw [noStep']; nofun) ?_ ?_ ?_
  · intro k mem held
    rw [rng, Rng.mem_mapClosed] at mem
    obtain ⟨l, mem, rfl⟩ := mem
    by_cases line : l.line.number = x.line
    · rw [if_pos line] at held ⊢
      rcases goesOn with ⟨-, -, state⟩ | ⟨queue, pass⟩
      · rw [state]
        exact onLine mem line
      · rw [Clr.firstPassRunning_of_none pass, number, line, queue, inv.queuedOnce.mem_erase_iff] at held
        exact absurd rfl (held.resolve_right nofun).1
    · rw [if_neg line] at held ⊢
      refine inv.colouring l mem (.inl (held.elim (queue.subset ·) fun hy => ?_))
      obtain ⟨y, hy, number⟩ := Option.map_eq_some_iff.1 hy
      exact absurd (number ▸ runs y hy) line
  · intro k mem
    rw [rng, Rng.mem_mapClosed] at mem
    obtain ⟨l, mem, rfl⟩ := mem
    split
    · rename_i line
      exact counted l mem line (onLine mem line)
    · rename_i other
      refine ClosedLine.counted_congr ?_ (inv.closed l mem)
      rw [Clr.firstPassOn_other fun y hy => (runs y hy).trans_ne (Ne.symm other),
        Clr.firstPassOn_other (by rw [on]; rintro _ ⟨⟩; exact Ne.symm other)]
  · rw [rng]
    intro l mem
    obtain ⟨agrees, count⟩ := inv.committed l mem
    rw [Clr.leftPending_other (by rw [noStep]; nofun)] at count
    rw [Clr.leftPending_other (by rw [noStep']; nofun)]
    exact ⟨agrees, count⟩

/-- A step goes on, or has ended: its line alone changes, and keeps its number. -/
theorem of_step (inv : LineColours s) {x : Pass} (running : s.clr.pass = some x) (step : x.kind ≠ .firstPass)
    {f : RingLine → RingLine} (rng : t.rng = s.rng.mapCommitted x.line f) (lnb : t.lnb = s.lnb)
    (queue : t.clr.colourQueue = s.clr.colourQueue) (list : t.clr.pendingList ⊆ s.clr.pendingList)
    (goesOn : ∀ y ∈ t.clr.pass, y.kind ≠ .firstPass ∧ y.line = x.line) (number : ∀ l, (f l).number = l.number)
    (counted : ∀ l ∈ s.rng.committed, l.number = x.line → l.header.agrees →
      l.header.pendingCount = countPending l.points + x.tally → (f l).header.agrees ∧
        (f l).header.pendingCount = countPending (f l).points + t.clr.leftPending x.line) : LineColours t := by
  have on : s.clr.stepRunning = some x := Clr.stepRunning_of_step running step
  have noFirst : s.clr.firstPassRunning = none := Clr.firstPassRunning_of_step running step
  have noFirst' : t.clr.firstPassRunning = none := by
    cases pass : t.clr.pass with
    | none => exact Clr.firstPassRunning_of_none pass
    | some y => exact Clr.firstPassRunning_of_step pass (goesOn y pass).1
  have runs : ∀ y ∈ t.clr.stepRunning, y.line = x.line := fun y hy => (goesOn y (Option.filter_eq_some_iff.1 hy).1).2
  refine inv.of_clr lnb (by rw [rng]; rfl) (by rw [rng]; exact s.rng.mapCommitted_numbers _ number) (by rw [rng]; rfl)
    (queue ▸ List.Sublist.refl _) list (by rw [noFirst']; nofun) (fun y hy => .inr ⟨x, on, (runs y hy).symm⟩) ?_ ?_ ?_
  · rw [rng, queue, noFirst', ← noFirst]
    exact inv.colouring
  · rw [rng]
    exact fun l mem => ClosedLine.counted_congr_running (noFirst'.trans noFirst.symm) (inv.closed l mem)
  · intro k mem
    rw [rng, Rng.mem_mapCommitted] at mem
    obtain ⟨l, mem, rfl⟩ := mem
    obtain ⟨agrees, count⟩ := inv.committed l mem
    split
    · rename_i line
      rw [number, line]
      rw [line, Clr.leftPending_same on] at count
      exact counted l mem line agrees count
    · rename_i other
      rw [Clr.leftPending_other (by rw [on]; rintro _ ⟨⟩; exact Ne.symm other)] at count
      rw [Clr.leftPending_other fun y hy => (runs y hy).trans_ne (Ne.symm other)]
      exact ⟨agrees, count⟩

end LineColours

end Sys2Proof.Machine

namespace Sys2Proof.Machine

/-! ### What leaves the tile table, CLR's lists and the lines alone -/

/-- All that the invariants of the tile table, of the tile area and of the pending counts read. -/
structure ColourView where
  lines : LineView
  slots : List TileSlot
  sectors : List (List Nat)
  backfillQueue : List Nat
  tileArea : Memory

def State.colourView (s : State) : ColourView :=
  ⟨s.lineView, s.clr.slots, s.clr.sectors, s.clr.backfillQueue, s.clr.tileArea⟩

theorem State.lineView_of_colourView {s t : State} (view : t.colourView = s.colourView) : t.lineView = s.lineView :=
  congrArg ColourView.lines view

theorem ExsKept.colourView {s t : State} (kept : ExsKept s t) : t.colourView = s.colourView := by
  rw [kept.rest]
  rfl

theorem State.colourView_raiseReady (before s : State) : (State.raiseReady before s).colourView = s.colourView := by
  rw [State.raiseReady_eq]
  rfl

theorem State.colourView_changeNotice (s : State) (n : Nat) : (s.changeNotice n).colourView = s.colourView := by
  refine foldl_field (fun s p => ?_) _ s
  unfold State.changeNoticeOn
  split <;> rfl

theorem State.colourView_closeStream (s : State) (p : PortId) (replies : Bool) :
    (s.closeStream p replies).colourView = s.colourView := by
  unfold State.closeStream
  split
  · simp only
    split
    · rfl
    · split <;> rfl
  · rfl

theorem State.colourView_closeStreams (s : State) : s.closeStreams.colourView = s.colourView :=
  foldl_field (fun s p => s.colourView_closeStream p true) _ s

theorem State.lineView_releasePins (s : State) : s.releasePins.lineView = s.lineView := by
  rw [State.releasePins_rest]
  rfl

namespace LineColours

variable {s t : State}

/-- A first pass gives its next record its colour: what it adds to the PENDING records it adds to the tally (R137). -/
theorem firstPass_point (inv : LineColours s) {x : Pass} (running : s.clr.pass = some x) (first : x.kind = .firstPass)
    {l : RingLine} (line : s.passLine x = some l) {p : Point} (at_done : l.points[x.done]? = some p) (q : Point)
    (rng : t.rng = s.rng.mapPassLine x (RingLine.recolour x.done q)) (lnb : t.lnb = s.lnb)
    (queue : t.clr.colourQueue = s.clr.colourQueue) (list : t.clr.pendingList = s.clr.pendingList)
    (pass : t.clr.pass = some { x with done := x.done + 1, tally := x.tally + x.kind.counts q }) : LineColours t := by
  rw [Rng.mapPassLine_first _ first] at rng
  refine inv.of_firstPass running first rng lnb list (.inl ⟨queue, ⟨_, pass, first, rfl⟩, fun _ => rfl⟩) (fun _ => rfl) ?_
  intro k mem number state
  obtain ⟨c, here, rfl, same⟩ := State.passLine_first first line
  obtain rfl := inv.closed_inj mem here (number.trans same.symm)
  have before := Clr.firstPassOn_same (Clr.firstPassRunning_of_first running first)
  have after := Clr.firstPassOn_same (Clr.firstPassRunning_of_first pass first)
  obtain ⟨colouring, -, -⟩ := inv.closed k mem
  rw [number, before] at colouring
  obtain ⟨uncoloured, count, rest⟩ := colouring state
  have drop_done : k.line.points.drop x.done = p :: k.line.points.drop (x.done + 1) := by
    obtain ⟨lt, rfl⟩ := List.getElem?_eq_some_iff.1 at_done
    exact List.drop_eq_getElem_cons lt
  rw [drop_done, countPending_cons] at rest
  refine ⟨fun _ => ?_, fun coloured => ?_, fun skipped => ?_⟩
  · have recoloured := countPending_modify (fun r => r.recolour q) at_done
    have pends : (p.recolour q).pends = q.pends := rfl
    have counts : x.kind.counts q = q.pends := by rw [first, PassKind.counts_firstPass]
    rw [show (k.line.recolour x.done q).number = x.line from number, after]
    refine ⟨uncoloured, ?_, ?_⟩
    · show countPending (k.line.points.modify x.done _) = x.tally + x.kind.counts q
      omega
    · show countPending ((k.line.points.modify x.done _).drop (x.done + 1)) = 0
      rw [List.drop_modify_of_lt _ _ _ _ (Nat.lt_succ_self _)]
      exact (Nat.add_eq_zero_iff.1 rest).1
  · exact absurd (state.symm.trans coloured) ClosedState.noConfusion
  · exact absurd (state.symm.trans skipped) ClosedState.noConfusion

/-- A step evaluates its next record, which is PENDING: it counts it in the tally when it leaves PENDING (R142, R143). -/
theorem step_point (inv : LineColours s) {x : Pass} (running : s.clr.pass = some x) (step : x.kind ≠ .firstPass)
    {l : RingLine} (line : s.passLine x = some l) {p : Point} (at_done : l.points[x.done]? = some p)
    (evaluated : x.kind.evaluates p = true) (q : Point)
    (rng : t.rng = s.rng.mapPassLine x (RingLine.recolour x.done q)) (lnb : t.lnb = s.lnb)
    (queue : t.clr.colourQueue = s.clr.colourQueue) (list : t.clr.pendingList = s.clr.pendingList)
    (pass : t.clr.pass = some { x with done := x.done + 1, tally := x.tally + x.kind.counts q }) : LineColours t := by
  rw [Rng.mapPassLine_step _ step] at rng
  refine inv.of_step running step rng lnb queue (list ▸ List.Subset.refl _) (by rw [pass]; rintro _ ⟨⟩; exact ⟨step, rfl⟩)
    (fun _ => rfl) ?_
  intro k mem number agrees count
  rw [State.passLine_step step] at line
  obtain ⟨here, same⟩ := Rng.lookup_some line
  obtain rfl := inv.committed_inj mem here (number.trans same.symm)
  have recoloured := countPending_modify (fun r => r.recolour q) at_done
  have pends : (p.recolour q).pends = q.pends := rfl
  have pending := PassKind.pends_of_evaluates step evaluated
  have counts := PassKind.counts_step step q
  refine ⟨agrees, ?_⟩
  have after : t.clr.leftPending x.line = x.tally + x.kind.counts q :=
    Clr.leftPending_same (x := { x with done := x.done + 1, tally := x.tally + x.kind.counts q })
      (Clr.stepRunning_of_step pass step)
  rw [after]
  show k.header.pendingCount = countPending (k.points.modify x.done _) + _
  omega

/-- A step passes over a record: it has dealt with it and counts nothing. -/
theorem step_passes (inv : LineColours s) {x : Pass} (running : s.clr.pass = some x) (step : x.kind ≠ .firstPass)
    (rng : t.rng = s.rng) (lnb : t.lnb = s.lnb) (clr : t.clr = { s.clr with pass := some { x with done := x.done + 1 } }) :
    LineColours t := by
  have same : t.rng = s.rng.mapCommitted x.line id := by
    rw [rng, Rng.mapCommitted]
    simp
  have pass : t.clr.pass = some { x with done := x.done + 1 } := by rw [clr]
  refine inv.of_step running step same lnb (by rw [clr]) (by rw [clr]; exact List.Subset.refl _)
    (by rw [pass]; rintro _ ⟨⟩; exact ⟨step, rfl⟩) (fun _ => rfl) (fun k _ _ agrees count => ⟨agrees, ?_⟩)
  rw [Clr.leftPending_same (x := { x with done := x.done + 1 }) (Clr.stepRunning_of_step pass step)]
  exact count

theorem colourNext (inv : LineColours s) : LineColours s.colourNext := by
  unfold State.colourNext
  split
  · exact inv
  · rename_i x running
    split
    · exact inv
    · rename_i p next
      obtain ⟨l, line, at_done⟩ := Option.bind_eq_some_iff.1 next
      have pinned (k : Option Nat) : (s.clr.pin k).colourQueue = s.clr.colourQueue ∧
          (s.clr.pin k).pendingList = s.clr.pendingList := by cases k <;> exact ⟨rfl, rfl⟩
      by_cases first : x.kind = .firstPass
      · rw [if_pos (by rw [first]; rfl)]
        exact inv.firstPass_point running first line at_done _ rfl rfl (pinned _).1 (pinned _).2 rfl
      · split
        · rename_i evaluated
          exact inv.step_point running first line at_done evaluated _ rfl rfl (pinned _).1 (pinned _).2 rfl
        · exact inv.step_passes running first rfl rfl rfl

theorem colourPoints (inv : LineColours s) (n : Nat) : LineColours (State.colourPoints n s) := by
  induction n generalizing s with
  | zero => exact inv
  | succ n ih => exact ih inv.colourNext

/-- The first pass has counted its line's PENDING records, and its header says so (R137). -/
theorem endFirstPass (inv : LineColours s) {x : Pass} (running : s.clr.pass = some x) (first : x.kind = .firstPass) :
    LineColours (s.endFirstPass x) := by
  refine (LineColours.congr ?_ (State.lineView_releasePins _)).commitReady
  refine inv.of_firstPass running first rfl rfl rfl (.inr ⟨rfl, rfl⟩) (fun _ => rfl) ?_
  intro k mem number state
  obtain ⟨colouring, -, -⟩ := inv.closed k mem
  rw [number, Clr.firstPassOn_same (Clr.firstPassRunning_of_first running first)] at colouring
  obtain ⟨-, count, -⟩ := colouring state
  refine ⟨nofun, fun _ => ⟨?_, count.symm⟩, nofun⟩
  show (if x.tally = 0 then LineColour.settled else LineColour.pending) = .settled ↔ x.tally = 0
  split <;> simp_all

/-- The step takes the records that left PENDING off the header's count (R142). -/
theorem endStep (inv : LineColours s) {x : Pass} (running : s.clr.pass = some x) (step : x.kind ≠ .firstPass) :
    LineColours (s.endStep x) := by
  have subset (done : Bool) : (if done then s.clr.pendingList.filter (fun n => decide (n ≠ x.line)) else s.clr.pendingList)
      ⊆ s.clr.pendingList := by
    cases done
    · exact List.Subset.refl _
    · exact List.filter_subset_self _
  unfold State.endStep
  simp only
  split
  · rename_i nothing
    refine LineColours.congr ?_ (State.lineView_releasePins _)
    refine inv.of_step (f := id) running step ?_ rfl rfl (subset _) nofun (fun _ => rfl) (fun k _ _ agrees count => ⟨agrees, ?_⟩)
    · simp [Rng.mapCommitted]
    · rw [Clr.leftPending_other (by rw [Clr.stepRunning_of_none rfl]; nofun), id_eq, count, nothing]
  · refine LineColours.congr ?_ (State.lineView_of_colourView
      ((State.colourView_raiseReady _ _).trans (State.colourView_changeNotice _ _)))
    refine LineColours.congr ?_ (State.lineView_releasePins _)
    refine inv.of_step running step rfl rfl rfl (subset _) nofun (fun _ => rfl) (fun k _ _ agrees count => ?_)
    rw [Clr.leftPending_other (by rw [Clr.stepRunning_of_none rfl]; nofun)]
    refine ⟨?_, ?_⟩
    · show (if k.header.pendingCount - x.tally = 0 then LineColour.settled else LineColour.pending) = .settled ↔
        k.header.pendingCount - x.tally = 0
      split <;> simp_all
    · show k.header.pendingCount - x.tally = countPending k.points + 0
      omega

theorem endClrTransfer (inv : LineColours s) (work : Nat) : LineColours (s.endClrTransfer work) := by
  unfold State.endClrTransfer
  split
  · exact inv
  · rename_i x running
    split
    · unfold State.endPass
      split
      · rename_i kind
        exact inv.endFirstPass running kind
      · rename_i kind
        exact inv.endStep running (by rw [kind]; exact PassKind.noConfusion)
      · rename_i kind
        exact inv.endStep running (by rw [kind]; exact PassKind.noConfusion)
    · exact inv.colourPoints _

/-! ### The lines go: a change of ring size, RESTART, POWER_ON (R46, R59, R60, R93, R144) -/

/-- With no line in RNG or CLR only LNB's part is left. -/
theorem of_no_lines (inv : LineColours s) (lnb : t.lnb = s.lnb)
    (view : t.lineView = ⟨[], [], none, t.lnb.fifo, t.lnb.openLine, t.lnb.lineCounter, [], none, []⟩) : LineColours t := by
  obtain ⟨committed, closed, ringOpen, -, -, -, queue, pass, pendingList⟩ := LineView.mk.inj view
  have first := Clr.firstPassRunning_of_none pass
  have step := Clr.stepRunning_of_none pass
  constructor
  case ascending =>
    rw [committed, closed]
    exact List.Pairwise.nil
  case behind =>
    intro n mem
    rw [State.mem_ringNumbers, committed, closed, queue, first] at mem
    simp at mem
  case queuedOnce =>
    rw [queue]
    exact List.nodup_nil
  case colouring =>
    rw [closed]
    exact fun _ mem => absurd mem List.not_mem_nil
  case listed =>
    rw [pendingList]
    exact fun _ mem => absurd mem List.not_mem_nil
  case stepOn =>
    rw [step]
    exact fun _ on => absurd on (Option.not_mem_none _)
  case written =>
    rw [ringOpen]
    exact fun _ on => absurd on (Option.not_mem_none _)
  case closed =>
    rw [closed]
    exact fun _ mem => absurd mem List.not_mem_nil
  case committed =>
    rw [committed]
    exact fun _ mem => absurd mem List.not_mem_nil
  all_goals rw [lnb]
  exacts [inv.items, inv.itemsNumbered, inv.openNumbered, inv.finished, inv.openUncoloured]

theorem resizeRing (inv : LineColours s) : LineColours s.resizeRing := by
  refine LineColours.congr ?_ (State.lineView_of_colourView (State.colourView_closeStreams _))
  refine inv.of_no_lines ?_ ?_
  · rw [← State.ringDiscarded, State.ringDiscarded_rest]
  · rw [← State.ringDiscarded]
    unfold State.lineView
    rw [State.ringDiscarded_clr, State.ringDiscarded_rest]
    rfl

/-- With the Point FIFO and the open line empty too nothing is left to count. -/
theorem of_empty (view : t.lineView = ⟨[], [], none, [], none, t.lnb.lineCounter, [], none, []⟩) : LineColours t := by
  obtain ⟨committed, closed, ringOpen, fifo, openLine, -, queue, pass, pendingList⟩ := LineView.mk.inj view
  have first := Clr.firstPassRunning_of_none pass
  have step := Clr.stepRunning_of_none pass
  rw [← lineColourInv_iff]
  simp [LineColourInv, LineOrderInv, ColourListsInv, UncolouredInv, State.ringNumbers, committed, closed, ringOpen, fifo,
    openLine, queue, pendingList, first, step]

end LineColours

end Sys2Proof.Machine

namespace Sys2Proof.Machine

/-! ### The tile table (R120, R129, R135, R140) -/

/-- `TableInv` with a name for each part; it speaks of CLR alone. -/
structure Clr.Table (c : Clr) : Prop where
  ascending : (c.slots.map TileSlot.slot).Pairwise (· < ·)
  below : ∀ t ∈ c.slots, t.slot < 48
  sectorCount : c.sectors.length = 64
  sectors : ∀ l ∈ c.sectors, l.length ≤ 8
  colourQueue : c.colourQueue.length ≤ 16
  backfillQueue : c.backfillQueue.length ≤ 64

theorem tableInv_iff (s : State) : TableInv s ↔ s.clr.Table :=
  ⟨fun ⟨ascending, below, count, sectors, queue, backfill⟩ => ⟨ascending, below, count, sectors, queue, backfill⟩,
    fun h => ⟨h.ascending, h.below, h.sectorCount, h.sectors, h.colourQueue, h.backfillQueue⟩⟩

theorem insertRanked_length (t : TileSlot) (ts : List TileSlot) : (insertRanked t ts).length = ts.length + 1 := by
  induction ts with
  | nil => rfl
  | cons u us ih =>
    unfold insertRanked
    split
    · rfl
    · rw [List.length_cons, ih, List.length_cons]

theorem mem_insertSlot {t u : TileSlot} {ts : List TileSlot} : u ∈ insertSlot t ts ↔ u = t ∨ u ∈ ts := by
  induction ts with
  | nil => exact ⟨fun h => .inl (List.mem_singleton.1 h), fun h => List.mem_singleton.2 (h.resolve_right List.not_mem_nil)⟩
  | cons v vs ih =>
    unfold insertSlot
    split
    · exact List.mem_cons
    · rw [List.mem_cons, ih, List.mem_cons]
      exact or_left_comm

/-- A slot whose number is free goes to its place. -/
theorem insertSlot_ascending {t : TileSlot} {ts : List TileSlot} (ascending : (ts.map TileSlot.slot).Pairwise (· < ·))
    (free : ∀ u ∈ ts, u.slot ≠ t.slot) : ((insertSlot t ts).map TileSlot.slot).Pairwise (· < ·) := by
  induction ts with
  | nil => exact List.pairwise_singleton _ _
  | cons u us ih =>
    have rest := ascending
    rw [List.map_cons, List.pairwise_cons] at rest
    obtain ⟨head, tail⟩ := rest
    unfold insertSlot
    split
    · rename_i lt
      rw [List.map_cons, List.pairwise_cons]
      refine ⟨fun n mem => ?_, ascending⟩
      rcases List.mem_cons.1 mem with rfl | mem
      · exact lt
      · exact lt.trans (head n mem)
    · rename_i le
      rw [List.map_cons, List.pairwise_cons]
      refine ⟨fun n mem => ?_, ih tail fun v mem => free v (List.mem_cons_of_mem _ mem)⟩
      obtain ⟨v, here, rfl⟩ := List.mem_map.1 mem
      rcases mem_insertSlot.1 here with rfl | here
      · exact lt_of_le_of_ne (not_lt.1 le) (free u List.mem_cons_self)
      · exact head _ (List.mem_map_of_mem here)

theorem insertInSector_length (c : Clr) (t : TileSlot) {sector : List Nat} (fits : sector.length ≤ 8) :
    (insertInSector c t sector).1.length ≤ 8 := by
  have listed : (c.listed sector).length ≤ 8 := (List.length_filterMap_le _ _).trans fits
  unfold insertInSector
  simp only
  split
  · rename_i room
    rw [List.length_map, insertRanked_length]
    exact room
  · split
    · rename_i empty
      rw [List.length_map, insertRanked_length, List.getLast?_eq_none_iff.1 empty]
      exact Nat.le_of_ble_eq_true rfl
    · split
      · rename_i full _ _ _
        rw [List.length_map, insertRanked_length, List.length_dropLast]
        omega
      · exact fits

namespace Clr.Table

variable {c d : Clr}

/-- Slots may go, none is renumbered, and the queues do not grow. -/
theorem shrinks (h : c.Table) (slots : (d.slots.map TileSlot.slot).Sublist (c.slots.map TileSlot.slot))
    (sectors : d.sectors = c.sectors) (queue : d.colourQueue.length ≤ c.colourQueue.length)
    (backfill : d.backfillQueue.length ≤ c.backfillQueue.length) : d.Table := by
  refine ⟨h.ascending.sublist slots, fun t mem => ?_, ?_, ?_, queue.trans h.colourQueue, backfill.trans h.backfillQueue⟩
  · obtain ⟨u, here, same⟩ := List.mem_map.1 (slots.subset (List.mem_map_of_mem mem))
    exact same ▸ h.below u here
  · rw [sectors]
    exact h.sectorCount
  · rw [sectors]
    exact h.sectors

/-- The slots, the sector lists and the queues stand as they were. -/
theorem same (h : c.Table) (slots : d.slots = c.slots) (sectors : d.sectors = c.sectors)
    (queue : d.colourQueue = c.colourQueue) (backfill : d.backfillQueue = c.backfillQueue) : d.Table :=
  h.shrinks (by rw [slots]) sectors (by rw [queue]) (by rw [backfill])

/-- A slot's fields change, and its number stays. -/
theorem mapSlot_numbers (c : Clr) (k : Nat) {f : TileSlot → TileSlot} (hf : ∀ t, (f t).slot = t.slot) :
    (c.mapSlot k f).slots.map TileSlot.slot = c.slots.map TileSlot.slot := by
  rw [Clr.mapSlot, List.map_map]
  refine List.map_congr_left fun t _ => ?_
  simp only [Function.comp_apply]
  split
  · exact hf t
  · rfl

theorem mapSlot (h : c.Table) (k : Nat) {f : TileSlot → TileSlot} (hf : ∀ t, (f t).slot = t.slot) : (c.mapSlot k f).Table :=
  h.shrinks (by rw [mapSlot_numbers c k hf]) rfl (Nat.le_refl _) (Nat.le_refl _)

/-- `mapSlot`, with CLR's other parts changed too. -/
theorem of_mapSlot (h : c.Table) {k : Nat} {f : TileSlot → TileSlot} (slots : d.slots = (c.mapSlot k f).slots)
    (hf : ∀ t, (f t).slot = t.slot) (sectors : d.sectors = c.sectors) (queue : d.colourQueue = c.colourQueue)
    (backfill : d.backfillQueue = c.backfillQueue) : d.Table := (h.mapSlot k hf).same slots sectors queue backfill

theorem pin (h : c.Table) (cell : Option Nat) : (c.pin cell).Table := by
  cases cell with
  | none => exact h
  | some k => exact h.mapSlot k fun _ => rfl

theorem dropSlot (h : c.Table) (k : Nat) : (c.dropSlot k).Table :=
  h.shrinks (List.filter_sublist.map _) rfl (Nat.le_refl _) (Nat.le_refl _)

theorem unpinned_numbers (c : Clr) : (c.unpinned.map TileSlot.slot).Sublist (c.slots.map TileSlot.slot) := by
  rw [Clr.unpinned, List.map_map]
  exact List.filter_sublist.map _

/-- A load takes a FREE slot (R123). -/
theorem accept (h : c.Table) {t : TileSlot} (free : c.slot t.slot = none) (below : t.slot < 48) :
    ({ c with slots := insertSlot t c.slots } : Clr).Table := by
  refine ⟨insertSlot_ascending h.ascending fun u mem => ?_, fun u mem => ?_, h.sectorCount, h.sectors, h.colourQueue,
    h.backfillQueue⟩
  · exact of_decide_eq_false (Bool.eq_false_iff.2 (List.find?_eq_none.1 free u mem))
  · rcases mem_insertSlot.1 mem with rfl | mem
    · exact below
    · exact h.below u mem

theorem insertInIndex (h : c.Table) (t : TileSlot) : (c.insertInIndex t).Table := by
  refine ⟨h.ascending, h.below, ?_, fun l mem => ?_, h.colourQueue, h.backfillQueue⟩
  · rw [Clr.insertInIndex, List.length_map, List.length_map, Clr.numbered, List.length_zipIdx]
    exact h.sectorCount
  · simp only [Clr.insertInIndex, List.map_map, List.mem_map, Clr.numbered] at mem
    obtain ⟨⟨sector, k⟩, here, rfl⟩ := mem
    have fits := h.sectors sector (List.fst_mem_of_mem_zipIdx here)
    simp only [Function.comp_apply]
    split
    · exact insertInSector_length c t fits
    · exact fits

theorem rebuild (h : c.Table) (w : AngularWindow) : (c.rebuild w).Table := by
  refine ⟨h.ascending, h.below, ?_, fun l mem => ?_, h.colourQueue, h.backfillQueue⟩
  · rw [Clr.rebuild, List.length_map, Clr.numbered, List.length_zipIdx]
    exact h.sectorCount
  · simp only [Clr.rebuild, List.mem_map, Clr.numbered] at mem
    obtain ⟨⟨sector, k⟩, here, rfl⟩ := mem
    split
    · rw [Clr.bestOf, List.length_map]
      exact List.length_take_le _ _
    · exact h.sectors sector (List.fst_mem_of_mem_zipIdx here)

theorem queueBackfill (h : c.Table) (e : Nat) : (c.queueBackfill e).Table := by
  unfold Clr.queueBackfill
  split
  · rename_i room
    refine ⟨h.ascending, h.below, h.sectorCount, h.sectors, h.colourQueue, ?_⟩
    rw [List.length_append]
    exact room
  · exact h.same rfl rfl rfl rfl

theorem takeLine (h : c.Table) (n : Nat) : (c.takeLine n).1.Table := by
  unfold Clr.takeLine
  split
  · rename_i room
    refine ⟨h.ascending, h.below, h.sectorCount, h.sectors, ?_, h.backfillQueue⟩
    rw [List.length_append]
    exact room
  · exact h.same rfl rfl rfl rfl

theorem powerOn : clrPowerOn.Table :=
  ⟨List.Pairwise.nil, fun _ mem => absurd mem List.not_mem_nil, rfl,
    fun _ mem => (List.eq_of_mem_replicate mem).symm ▸ Nat.zero_le _, Nat.zero_le _, Nat.zero_le _⟩

theorem choose (h : c.Table) : c.choose.Table := by
  have chosen := Chooses.choose c
  exact h.shrinks (by rw [chosen.slots]) chosen.sectors (by rw [chosen.colourQueue]) chosen.backfillQueue

end Clr.Table

/-! ### The ring writer and CLR's work keep the tile table -/

/-- Going from `s` to `t` keeps the bounds of the tile table, and of CLR's queues. -/
def KeepsTable (s t : State) : Prop := s.clr.Table → t.clr.Table

namespace KeepsTable

theorem refl (s : State) : KeepsTable s s := id

theorem trans {s t u : State} (h : KeepsTable s t) (k : KeepsTable t u) : KeepsTable s u := k ∘ h

theorem of_clr {s t : State} (clr : t.clr = s.clr) : KeepsTable s t := fun h => clr ▸ h

theorem of_view {s t : State} (view : t.colourView = s.colourView) : KeepsTable s t := by
  obtain ⟨lines, slots, sectors, backfill, -⟩ := ColourView.mk.inj view
  have queue : t.clr.colourQueue = s.clr.colourQueue := congrArg LineView.colourQueue lines
  exact fun h => h.same slots sectors queue backfill

theorem releasePins (s : State) : KeepsTable s s.releasePins := by
  rw [State.releasePins_rest]
  exact fun h => h.shrinks (Clr.Table.unpinned_numbers _) rfl (Nat.le_refl _) (Nat.le_refl _)

theorem cutPass (s : State) : KeepsTable s s.cutPass := by
  cases pass : s.clr.pass with
  | none =>
    rw [State.cutPass_none pass]
    exact .refl s
  | some x =>
    rw [State.cutPass_some pass]
    exact fun h => h.shrinks (Clr.Table.unpinned_numbers _) rfl (Nat.le_refl _) (Nat.le_refl _)

theorem clrReclaim (s : State) (n : Nat) : KeepsTable s (s.clrReclaim n) := by
  have forgets : KeepsTable s (s.pendingForgets n) :=
    fun h => h.same rfl rfl rfl rfl
  by_cases stays : ∀ x, s.clr.pass = some x → x.kind = .firstPass ∨ x.line ≠ n
  · rw [State.clrReclaim_stays stays]
    exact forgets
  · push Not at stays
    obtain ⟨x, pass, step, line⟩ := stays
    rw [State.clrReclaim_cut pass step line]
    exact forgets.trans (.cutPass _)

theorem reclaimHead (s : State) (l : RingLine) : KeepsTable s (s.reclaimHead l) := by
  have told : (s.reclaimHead l).clr = (s.bothTold l).clr := by rw [State.reclaimHead_rest]
  have str : KeepsTable s (s.strTold l) := .of_clr (State.strReclaim_clr _ _)
  exact (str.trans (.clrReclaim (s.strTold l) l.number)).trans (.of_clr told)

theorem reclaimFor (bytes k : Nat) (s : State) : KeepsTable s (State.reclaimFor bytes k s) := by
  induction k generalizing s with
  | zero => exact .refl s
  | succ k ih =>
    unfold State.reclaimFor
    split
    · exact .refl s
    · split
      · exact .refl s
      · split
        · exact (reclaimHead s _).trans (ih _)
        · exact .refl s

theorem admitBytes (s : State) (bytes : Nat) : KeepsTable s (s.admitBytes bytes).1 := .reclaimFor bytes _ s

theorem commitReady (s : State) : KeepsTable s s.commitReady := by
  have commits (k : Nat) (s : State) : KeepsTable s (State.commitReadyIn k s) := by
    induction k generalizing s with
    | zero => exact .refl s
    | succ k ih =>
      unfold State.commitReadyIn
      split
      · exact .refl s
      · rename_i l _ _
        split
        · refine KeepsTable.trans ?_ (ih _)
          have joined : (s.commitHead l.line).clr = _ :=
            (show _ = (s.lineMoved l.line).clr by rw [State.commitHead_rest]).trans (Clr.joinPending_eq s.clr l.line)
          exact fun h => h.same (by rw [joined]) (by rw [joined]) (by rw [joined]) (by rw [joined])
        · exact .refl s
  exact commits _ s

theorem openItem (s : State) (n : Nat) : KeepsTable s (s.openItem n) := by
  have begun : KeepsTable s { s with rng := { s.rng with discarding := none } } := .of_clr rfl
  rw [State.openItem_eq]
  split
  · exact (begun.trans (.admitBytes _ 48)).trans (.of_clr rfl)
  · exact (begun.trans (.admitBytes _ 48)).trans (.of_clr rfl)

theorem pointItem (s : State) (n : Nat) (p : Point) : KeepsTable s (s.pointItem n p) := by
  unfold State.pointItem
  split
  · exact .refl s
  · simp only
    split
    · exact (admitBytes s p.size).trans (.of_clr rfl)
    · exact (admitBytes s p.size).trans (.of_clr rfl)

theorem closeItem (s : State) (h : LineHeader) : KeepsTable s (s.closeItem h) := by
  unfold State.closeItem
  split
  · exact .refl s
  · unfold State.closeNotice
    simp only
    refine KeepsTable.trans ?_ (.commitReady _)
    exact fun table => table.takeLine h.lineNumber

theorem writeItem (s : State) : KeepsTable s s.writeItem := by
  cases fifo : s.lnb.fifo with
  | nil =>
    rw [State.writeItem, fifo]
    exact .refl s
  | cons x rest =>
    have taken : KeepsTable s (s.itemTaken rest) := .of_clr rfl
    cases discards : s.rng.discards x with
    | some d =>
      rw [State.writeItem_discards fifo discards]
      refine taken.trans (.of_clr ?_)
      unfold State.discardItem
      split
      · rfl
      · rfl
      · split <;> rfl
    | none =>
      rw [State.writeItem_keeps fifo discards]
      cases x with
      | openNotice n => exact taken.trans (.openItem _ n)
      | point n p => exact taken.trans (.pointItem _ n p)
      | closeNotice n h => exact taken.trans (.closeItem _ h)

theorem colourPoints (n : Nat) (s : State) : KeepsTable s (State.colourPoints n s) := by
  have next (s : State) : KeepsTable s s.colourNext := by
    unfold State.colourNext
    split
    · exact .refl s
    · split
      · exact .refl s
      · split
        · exact fun h => (h.pin _).same rfl rfl rfl rfl
        · exact fun h => h.same rfl rfl rfl rfl
  induction n generalizing s with
  | zero => exact .refl s
  | succ n ih => exact (next s).trans (ih _)

theorem endFirstPass (s : State) (x : Pass) : KeepsTable s (s.endFirstPass x) := by
  refine KeepsTable.trans ?_ ((KeepsTable.releasePins _).trans (.commitReady _))
  exact fun h => h.shrinks (List.Sublist.refl _) rfl List.length_erase_le (Nat.le_refl _)

theorem endStep (s : State) (x : Pass) : KeepsTable s (s.endStep x) := by
  unfold State.endStep
  simp only
  split
  · refine KeepsTable.trans ?_ (.releasePins _)
    exact fun h => h.same rfl rfl rfl rfl
  · refine KeepsTable.trans ?_ ((KeepsTable.releasePins _).trans
      (.of_view ((State.colourView_raiseReady s _).trans (State.colourView_changeNotice _ x.line))))
    exact fun h => h.same rfl rfl rfl rfl

theorem endClrTransfer (s : State) (work : Nat) : KeepsTable s (s.endClrTransfer work) := by
  unfold State.endClrTransfer
  split
  · exact .refl s
  · split
    · unfold State.endPass
      split
      · exact .endFirstPass s _
      · exact .endStep s _
      · exact .endStep s _
    · exact .colourPoints _ s

theorem resizeRing (s : State) : KeepsTable s s.resizeRing := by
  refine KeepsTable.trans (t := s.ringDiscarded) ?_ (.of_view s.ringDiscarded.colourView_closeStreams)
  rw [State.ringDiscarded_eq]
  refine KeepsTable.trans ?_ (.cutPass _)
  exact fun h => h.shrinks (List.Sublist.refl _) rfl (Nat.zero_le _) (Nat.le_refl _)

end KeepsTable

end Sys2Proof.Machine

namespace Sys2Proof.Machine

/-! ### What keeps the tile table, the tile area and the pending counts -/

theorem tileAreaInv_of_same {s t : State} (same : t.clr.tileArea = s.clr.tileArea) (inv : TileAreaInv s) :
    TileAreaInv t := by
  show Memory.wf t.clr.tileArea
  rw [same]
  exact inv

/-- Going from `s` to `t` keeps the tile table, the tile area's form and the pending counts. -/
structure KeepsColour (s t : State) : Prop where
  table : KeepsTable s t
  area : TileAreaInv s → TileAreaInv t
  lines : LineColours s → LineColours t

namespace KeepsColour

theorem refl (s : State) : KeepsColour s s := ⟨id, id, id⟩

theorem trans {s t u : State} (h : KeepsColour s t) (k : KeepsColour t u) : KeepsColour s u :=
  ⟨h.table.trans k.table, k.area ∘ h.area, k.lines ∘ h.lines⟩

/-- `KeepsColour.trans`, the later part given first, which then says what the earlier part leads to. -/
theorem after {s t u : State} (k : KeepsColour t u) (h : KeepsColour s t) : KeepsColour s u := h.trans k

/-- Nothing the invariants read has changed. -/
theorem same {s t : State} (view : t.colourView = s.colourView) : KeepsColour s t := by
  have area : t.clr.tileArea = s.clr.tileArea := congrArg ColourView.tileArea view
  exact ⟨.of_view view, tileAreaInv_of_same area, fun h => h.congr (State.lineView_of_colourView view)⟩

theorem foldl {α : Type} {f : State → α → State} (hf : ∀ s a, KeepsColour s (f s a)) (l : List α) (s : State) :
    KeepsColour s (l.foldl f s) := by
  induction l generalizing s with
  | nil => exact .refl s
  | cons a l ih => exact (hf s a).trans (ih _)

/-- Of the ring, CLR and LNB everything is the same. -/
theorem of_kept {s t : State} (kept : Kept s t) (table : KeepsTable s t) (lines : LineColours s → LineColours t) :
    KeepsColour s t := ⟨table, tileAreaInv_of_same kept.tileArea, lines⟩

/-- LNB's work leaves CLR alone. -/
theorem of_lnb {s t : State} (clr : t.clr = s.clr) (lines : LineColours s → LineColours t) : KeepsColour s t :=
  ⟨.of_clr clr, tileAreaInv_of_same (congrArg Clr.tileArea clr), lines⟩

/-- The part of CLR that the pending counts read stays, and so do LNB and the lines of the ring. -/
theorem of_clr {s t : State} (table : KeepsTable s t) (area : TileAreaInv s → TileAreaInv t)
    (lines : t.lineView = s.lineView) : KeepsColour s t := ⟨table, area, fun h => h.congr lines⟩

/-! ### The end of a step (R83 to R96, R136) -/

theorem holdLine (s : State) (p : PortId) (r : LinesRead) (n : Nat) : KeepsColour s (s.holdLine p r n) := by
  unfold State.holdLine
  split <;> exact .same rfl

theorem beginLine (s : State) (p : PortId) (r : LinesRead) (n : Nat) : KeepsColour s (s.beginLine p r n) := by
  unfold State.beginLine
  split
  · exact .same rfl
  · exact .holdLine s p r n

theorem beginReads (s : State) : KeepsColour s s.beginReads := by
  refine .foldl (fun s p => ?_) _ s
  unfold State.beginRead
  split
  · exact .refl s
  · split
    · split
      · exact .refl s
      · exact .beginLine s p _ _
    · exact .refl s
    · split
      · exact .refl s
      · exact .holdLine s p _ _

theorem chooseWork (s : State) : KeepsColour s s.chooseWork :=
  .of_kept (Kept.chooseWork s) Clr.Table.choose LineColours.chooseWork

theorem countStall (s : State) : KeepsColour s s.countStall := by
  unfold State.countStall
  split <;> exact .same rfl

theorem grantWriter (s : State) (waiting : Bool) : KeepsColour s (s.grantWriter waiting) := by
  unfold State.grantWriter
  refine .after (.of_kept (Kept.writeItem _) (.writeItem _) LineColours.writeItem) (.same rfl)

theorem grant (s : State) : KeepsColour s s.grant := by
  cases progress : s.rng.inProgress with
  | some t =>
    rw [State.grant_busy progress]
    exact .refl s
  | none =>
    rw [State.grant_idle progress]
    split
    · exact .grantWriter s _
    · cases s.winner with
      | none => exact .refl s
      | some x => exact .same rfl

theorem settle {s t : State} (h : KeepsColour s t) : KeepsColour s t.settle := by
  have follows (u : State) : KeepsColour u u.beginReads.chooseWork.countStall :=
    ((beginReads u).trans (.chooseWork _)).trans (.countStall _)
  exact ((h.trans (follows t)).trans (.grant _)).trans (follows _)

/-! ### Time, pulses and the scan's changes of state (R67 to R74) -/

theorem closeLine (s : State) (c : CloseCause) : KeepsColour s (s.closeLine c) :=
  .of_lnb (LnbKept.closeLine s c).clr (fun h => h.closeLine c)

theorem clearSpent_closeLine (s : State) (c : CloseCause) : KeepsColour s (s.closeLine c).clearSpent :=
  (closeLine s c).trans (.same rfl)

theorem closePulses (s : State) (sel : PulseRec → Bool) : KeepsColour s (s.closePulses sel) := by
  refine .trans (.foldl (fun s r => ?_) _ s) (.same rfl)
  unfold State.closePulse
  simp only
  split
  · exact .same rfl
  · exact .after (.of_lnb (LnbKept.takePoint _ _).clr (fun h => h.takePoint _)) (.same rfl)

theorem wrapActions (s : State) : KeepsColour s s.wrapActions :=
  settle ((closePulses s (fun _ => true)).trans (.same rfl))

theorem elapse (s : State) (dt : Nat) : KeepsColour s (s.elapse dt) := by
  unfold State.elapse
  split
  · exact .same rfl
  · exact .after (.wrapActions _) (.same rfl)

/-- What a command does once its time has passed decides. -/
theorem timed {f : State → State} (hf : ∀ e, KeepsColour e (f e)) (s : State) (dt : Nat) : KeepsColour s (f (s.elapse dt)) :=
  (elapse s dt).trans (hf _)

theorem enterEmit (s : State) (isBreak : Bool) (id : BitVec 16) (t : Time) : KeepsColour s (s.enterEmit isBreak id t) :=
  (closePulses s _).trans (.same rfl)

theorem takeEmit (s : State) (id : BitVec 16) (t : Time) : KeepsColour s (s.takeEmit id t) := by
  unfold State.takeEmit
  split
  · unfold State.testEmit
    split
    · exact .same rfl
    · split
      · exact .enterEmit s _ id t
      · exact .after (.enterEmit _ _ id t) (.same rfl)
      · exact .same rfl
      · exact .after (.enterEmit _ _ id t) (.same rfl)
  all_goals exact .same rfl

theorem takeEcho (s : State) (x : EchoRec) : KeepsColour s (s.takeEcho x) := by
  have processed : KeepsColour s (s.processEcho x) := by
    unfold State.processEcho
    simp only
    split <;> exact .same rfl
  unfold State.takeEcho
  split
  · exact processed
  · exact processed
  all_goals exact .same rfl

theorem enterFault (s : State) (c : FaultCause) : KeepsColour s (s.enterFault c) := by
  have discarded : KeepsColour s { s with scn := s.scn.toFault c, eca := s.eca.discardPulses } := .same rfl
  have aborted := discarded.trans (.clearSpent_closeLine _ .aborted)
  have replied (u : State) (o : PortTag) : KeepsColour u (State.failReply c u o) := .same rfl
  exact (aborted.trans (.foldl replied s.scn.pendingReplies _)).trans (.same rfl)

theorem enterRunning (s : State) (t : Time) : KeepsColour s (s.enterRunning t) := by
  have started (u : State) (r : Option PortTag) : KeepsColour u (u.startDone r) := by
    unfold State.startDone
    split <;> exact .same rfl
  have entered : KeepsColour s { s with
      scn := s.scn.toRunning (s.ang.azimuthQuery t)
      ang := { s.ang with travel := 0 }
      eca := { s.eca with prevEmit := none } } := .same rfl
  have cleared (u : State) : KeepsColour u (u.raiseAll evState).clearSpent := .same rfl
  exact ((entered.trans (started _ s.scn.startReply)).trans (cleared _)).trans (.same (ExsKept.exsEnterRunning _).colourView)

theorem completeDrain (s : State) : KeepsColour s s.completeDrain := by
  have emptied : KeepsColour s (s.closePulses (fun _ => true)).emptyHistory := (closePulses s _).trans (.same rfl)
  have drained : KeepsColour s s.drainPulses := emptied.trans (.clearSpent_closeLine _ .drain)
  have stopped (u : State) (o : PortTag) : KeepsColour u (u.stopDone o) := .same rfl
  have idle : KeepsColour s.drainPulses { s.drainPulses with scn :=
      { s.drainPulses.scn with state := .idle, drain := none, stopReplies := [] } } := .same rfl
  exact ((drained.trans idle).trans (.foldl stopped s.scn.stopReplies _)).trans (.same rfl)

/-! ### Reports of ANG and ECA -/

theorem revolutionReport (s : State) (v : Verdict) (t : Time) : KeepsColour s (s.revolutionReport v t) := by
  have armed : KeepsColour s (s.armedReport v t) := by
    unfold State.armedReport
    split
    · exact .same rfl
    · exact .same rfl
    · split
      · exact .same rfl
      · split
        · exact .enterRunning s t
        · exact .same rfl
  unfold State.revolutionReport
  split
  · exact armed
  · split
    · exact .enterFault s _
    · exact .refl s
    · exact .refl s
  all_goals exact .refl s

theorem bandLoss (s : State) (c : BandLossCause) : KeepsColour s (s.bandLoss c) := by
  have lost : KeepsColour s (s.setAng s.ang.bandLoss) := .same rfl
  have reported (u : State) : KeepsColour u (u.bandLossReport c) := by
    unfold State.bandLossReport
    split
    · exact .same rfl
    · exact .enterFault u _
    all_goals exact .refl u
  exact lost.trans (reported _)

theorem linkReport (s : State) : KeepsColour s s.linkReport := by
  unfold State.linkReport
  split
  · exact .enterFault s _
  · exact .enterFault s _
  all_goals exact .refl s

theorem recordReport (s : State) (code : Byte) : KeepsColour s (s.recordReport code) := by
  unfold State.recordReport
  split
  · exact .enterFault s _
  all_goals exact .refl s

theorem spanTest (s : State) : KeepsColour s s.spanTest := by
  unfold State.spanTest
  split
  · split <;> exact .same rfl
  all_goals exact .refl s

theorem raiseIndexFault (s : State) (r : IndexResult) : KeepsColour s (s.raiseIndexFault r) := by
  unfold State.raiseIndexFault
  split <;> exact .same rfl

theorem mirrorEdge (s : State) (dir : Dir) (active : Bool) : KeepsColour s (s.mirrorEdge dir active) := by
  have edge : KeepsColour s (s.setAng ((s.ang.mirrorEdge s.tb dir active).1.restartStall s.scn.params s.tb)) := .same rfl
  have counted : KeepsColour s (s.countMirror dir active) := edge.trans (.raiseIndexFault _ _)
  have ended (u : State) : KeepsColour u u.endRevolution := .after (.revolutionReport _ _ _) (.same rfl)
  cases dir with
  | backward => exact counted.trans (.bandLoss _ .reverse)
  | forward =>
    rw [State.mirrorEdge_forward]
    split
    · exact counted.trans (ended _)
    · exact counted

theorem azimuthEdge (s : State) (dir : Dir) (active : Bool) : KeepsColour s (s.azimuthEdge dir active) := by
  have edge : KeepsColour s (s.setAng (s.ang.azimuthEdge s.tb dir active).1) := .same rfl
  exact ((edge.trans (.raiseIndexFault _ _)).trans (.spanTest _)).trans (.same (ExsKept.exsTravel _ dir).colourView)

theorem takeEdge (s : State) (axis : Axis) (kind : EdgeKind) (active : Bool) :
    KeepsColour s (s.takeEdge axis kind active) := by
  unfold State.takeEdge
  split
  · exact .mirrorEdge s _ active
  · exact .mirrorEdge s _ active
  · exact .azimuthEdge s _ active
  · exact .azimuthEdge s _ active
  · unfold State.seeIndex
    split <;> exact .same rfl

theorem stallExpiry (s : State) : KeepsColour s s.stallExpiry := by
  unfold State.stallExpiry
  split
  · exact settle (.after (.bandLoss _ _) (.same rfl))
  · exact .refl s

theorem rangingUp (s : State) : KeepsColour s s.rangingUp := by
  unfold State.rangingUp
  split <;> exact .same rfl

theorem rangingLoss (s : State) : KeepsColour s s.rangingLoss := by
  unfold State.rangingLoss
  split
  · exact .refl s
  · exact settle (.after (.linkReport _) (.same rfl))

theorem onRecord {k : State → State} (hk : ∀ s, KeepsColour s (k s)) (s : State) : KeepsColour s (s.onRecord k) := by
  unfold State.onRecord
  split
  · exact .refl s
  · exact hk s

theorem takeFaultRecord (s : State) (code : Byte) : KeepsColour s (s.takeFaultRecord code) :=
  .after (.recordReport _ code) (.same rfl)

theorem armedTimer (s : State) : KeepsColour s
    (if decide (s.scn.state = .armed) && timerDue s.scn.armed s.tb then (s.enterFault .mirrorBand).settle else s) := by
  split
  · exact (enterFault s _).settle
  · exact .refl s

theorem drainTimer (s : State) : KeepsColour s
    (if decide (s.scn.state = .draining) && timerDue s.scn.drain s.tb then s.completeDrain.settle else s) := by
  split
  · exact (completeDrain s).settle
  · exact .refl s

theorem takeAbandonment (s : State) : KeepsColour s s.takeAbandonment := by
  refine .of_lnb ?_ LineColours.takeAbandonment
  unfold State.takeAbandonment
  split <;> rfl

end KeepsColour

end Sys2Proof.Machine

namespace Sys2Proof.Machine

namespace KeepsColour

/-- The tile table changes as told; CLR's lists, the lines and the tile area stay. -/
theorem of_table {s t : State} (table : KeepsTable s t) (area : t.clr.tileArea = s.clr.tileArea)
    (lines : t.lineView = s.lineView) : KeepsColour s t := .of_clr table (tileAreaInv_of_same area) lines

/-! ### Command frames and their data -/

theorem refuse (s : State) (p : PortId) (tag : Tag) (c : SenseClass) (code : Nat) (info : Option Nat) :
    KeepsColour s (s.refuse p tag c code info) := .same rfl

theorem client {body : State → State} (hb : ∀ s, KeepsColour s (body s)) (p : PortId) (tag : Tag)
    (allowed : Role → Bool) (s : State) : KeepsColour s (client p tag allowed body s) := by
  unfold Machine.client tagAndRole
  split
  · exact .refl s
  · split
    · exact .same rfl
    · split
      · exact KeepsColour.after (hb _) (.same rfl)
      · exact .same rfl

theorem clientKeepSense {body : State → State} (hb : ∀ s, KeepsColour s (body s)) (p : PortId) (tag : Tag)
    (s : State) : KeepsColour s (clientKeepSense p tag body s) := by
  unfold Machine.clientKeepSense tagAndRole
  split
  · exact .refl s
  · split
    · exact .same rfl
    · split
      · exact hb s
      · exact .same rfl

theorem clientSkipTag {body : State → State} (hb : ∀ s, KeepsColour s (body s)) (p : PortId) (s : State) :
    KeepsColour s (clientSkipTag p body s) := by
  unfold Machine.clientSkipTag
  split
  · exact .refl s
  · exact KeepsColour.after (hb _) (.same rfl)

theorem inIdle {k : State → State} (hk : ∀ s, KeepsColour s (k s)) (s : State) (p : PortId) (tag : Tag) :
    KeepsColour s (s.inIdle p tag k) := by
  by_cases idle : s.scn.state = .idle
  · rw [State.inIdle_idle idle]
    exact hk s
  · rw [State.inIdle_other idle]
    exact .same rfl

theorem idleAtLastByte {k : State → State} (hk : ∀ s, KeepsColour s (k s)) (s : State) (p : PortId) (tag : Tag) :
    KeepsColour s (s.idleAtLastByte p tag k) := by
  by_cases idle : s.scn.state = .idle
  · rw [State.idleAtLastByte_idle idle]
    exact hk s
  · rw [State.idleAtLastByte_other idle]
    exact .same rfl

theorem countTest {k : State → State} (hk : ∀ s, KeepsColour s (k s)) (s : State) (p : PortId) (tag : Tag)
    (count : Byte) (largest operand : Nat) : KeepsColour s (s.countTest p tag count largest operand k) := by
  unfold State.countTest
  split
  · exact .same rfl
  · exact hk s

theorem gatherInIdle (s : State) (p : PortId) (tag : Tag) (like : Job → Bool) (j : Job) :
    KeepsColour s (s.inIdle p tag (fun s => s.gatherAlone p tag like j)) := by
  refine .inIdle (fun s => ?_) s p tag
  unfold State.gatherAlone
  split <;> exact .same rfl

theorem deliver (s : State) (p : PortId) (tag : Tag) (code : Byte) (ps : List (List Byte)) :
    KeepsColour s (s.deliver p tag code ps) := by
  unfold State.deliver
  split <;> exact .same rfl

theorem pump (s : State) (p : PortId) (tag : Tag) : KeepsColour s (s.pump p tag) := by
  unfold State.pump
  split
  · split
    · exact .deliver s p tag _ _
    · exact .refl s
  · exact .refl s

/-! ### Scan commands -/

theorem takeScanStart (s : State) (p : PortId) (tag : Tag) : KeepsColour s (s.takeScanStart p tag) := by
  refine .inIdle (fun s => ?_) s p tag
  exact .same rfl

theorem takeScanStop (s : State) (p : PortId) (tag : Tag) : KeepsColour s (s.takeScanStop p tag) := by
  have aborted (u : State) : KeepsColour u u.abortStartReply := by
    unfold State.abortStartReply
    split <;> exact .same rfl
  have disarmed : KeepsColour s { s with scn := { s.scn with state := .idle, armed := none, inBand := 0 } } := .same rfl
  have answered (u : State) : KeepsColour u ((u.answer p tag .done).raiseAll evState) := .same rfl
  unfold State.takeScanStop
  split
  · exact .same rfl
  · exact (disarmed.trans (aborted _)).trans (answered _)
  all_goals exact .same rfl

theorem takeFaultClear (s : State) (p : PortId) (tag : Tag) : KeepsColour s (s.takeFaultClear p tag) := by
  unfold State.takeFaultClear
  split <;> exact .same rfl

/-- RESTART empties the table, the queues and the ring; the bytes of the tile area stay (R59, R81, R144). -/
theorem takeRestart (s : State) (p : PortId) (tag : Tag) : KeepsColour s (s.takeRestart p tag) := by
  have ended (s : State) (p : PortId) : KeepsColour s (s.restartPort p) := by
    refine .foldl (fun s t => ?_) _ s
    unfold State.restartTag
    split <;> exact .same rfl
  have blocks (s : State) : KeepsColour s s.restartBlocks :=
    ⟨fun _ => Clr.Table.powerOn.same rfl rfl rfl rfl, id, fun _ => .of_empty rfl⟩
  exact ((foldl ended _ s).trans (blocks _)).trans (.same rfl)

/-! ### Data blocks -/

/-- A new parameter set either keeps the ring size or empties the ring (R46, R93). -/
theorem installScanParams (s : State) (p : PortId) (tag : Tag) (q : ScanParams) :
    KeepsColour s (s.installScanParams p tag q) := by
  unfold State.installScanParams
  simp only
  split
  · exact .same rfl
  · exact .after (.of_kept (Kept.resizeRing _) (.resizeRing _) LineColours.resizeRing) (.same rfl)

theorem completeScanSetup (s : State) (p : PortId) (tag : Tag) (block : List Byte) :
    KeepsColour s (s.completeScanSetup p tag block) := by
  refine .idleAtLastByte (fun s => ?_) s p tag
  split
  · exact .same rfl
  · exact .installScanParams s p tag _

theorem completeMirrorCalibrate (s : State) (p : PortId) (tag : Tag) (data : List Byte) :
    KeepsColour s (s.completeMirrorCalibrate p tag data) := by
  refine .idleAtLastByte (fun s => ?_) s p tag
  exact .same rfl

theorem completeMaskLoad (s : State) (p : PortId) (tag : Tag) (n : Nat) (data : List Byte) :
    KeepsColour s (s.completeMaskLoad p tag n data) := by
  refine .idleAtLastByte (fun s => ?_) s p tag
  simp only
  split <;> exact .same rfl

theorem completeCameraSetup (s : State) (p : PortId) (tag : Tag) (block : List Byte) :
    KeepsColour s (s.completeCameraSetup p tag block) := by
  refine .idleAtLastByte (fun s => ?_) s p tag
  split <;> exact .same rfl

theorem completeStationLoad (s : State) (p : PortId) (tag : Tag) (n : Nat) (data : List Byte) :
    KeepsColour s (s.completeStationLoad p tag n data) := by
  refine .idleAtLastByte (fun s => ?_) s p tag
  simp only
  split <;> exact .same rfl

theorem takeCells (s : State) (k : Nat) (bytes : List Byte) : KeepsColour s (s.takeCells k bytes) := by
  unfold State.takeCells
  split
  · exact .refl s
  · exact .of_table (fun h => h.of_mapSlot rfl (fun _ => rfl) rfl rfl rfl) rfl rfl

/-- An accepted load takes the lowest-numbered FREE slot (R123). -/
theorem acceptTile {s : State} {k : Nat} (free : s.clr.freeSlot = some k) (p : PortId) (tag : Tag) (ops : TileOperands)
    (w : AngularWindow) : KeepsColour s (s.acceptTile p tag ops w k) := by
  have below : k < 48 := List.mem_range.1 (List.mem_of_find?_eq_some free)
  have empty : s.clr.slot k = none := Option.isNone_iff_eq_none.1 (List.find?_some (p := fun k => (s.clr.slot k).isNone) free)
  exact .of_table (fun h => h.accept (t := loadingSlot k ops w ⟨p, tag⟩) empty below) rfl rfl

theorem placeTile (s : State) (p : PortId) (tag : Tag) (ops : TileOperands) (w : AngularWindow) :
    KeepsColour s (s.placeTile p tag ops w).1 := by
  unfold State.placeTile
  split
  · exact .same rfl
  · split
    · split
      · exact .same rfl
      · rename_i free
        exact .acceptTile free p tag ops w
    · exact .same rfl

theorem gatherDescriptor (s : State) (p : PortId) (tag : Tag) (ops : TileOperands) (bytes : List Byte) :
    KeepsColour s (s.gatherDescriptor p tag ops bytes) := by
  have placed := KeepsColour.placeTile s p tag ops (descriptorOf bytes)
  unfold State.gatherDescriptor State.completeDescriptor
  simp only
  split
  · exact .same rfl
  · split
    · exact .same rfl
    · split
      · rename_i s1 k h
        rw [h] at placed
        exact placed.trans (.takeCells s1 k _)
      · rename_i s1 h
        rw [h] at placed
        exact placed

theorem gather {complete : State → List Byte → State} (hc : ∀ s x, KeepsColour s (complete s x)) (s : State)
    (p : PortId) (tag : Tag) (need : Nat) (bytes : List Byte) (mk : List Byte → Job) :
    KeepsColour s (s.gather p tag need bytes mk complete) := by
  unfold State.gather
  split
  · exact .same rfl
  · exact hc s _

theorem takeData (s : State) (p : PortId) (tag : Tag) (payload : List Byte) :
    KeepsColour s (s.takeData p tag payload) := by
  have stray : KeepsColour s (s.stray p) := .same rfl
  unfold State.takeData
  split
  · exact stray
  · split
    · exact .gather (fun s x => .completeMirrorCalibrate s p tag x) s p tag _ _ _
    · exact .gather (fun s x => .completeScanSetup s p tag x) s p tag _ _ _
    · exact .gather (fun s x => .completeMaskLoad s p tag _ x) s p tag _ _ _
    · exact .gather (fun s x => .completeCameraSetup s p tag x) s p tag _ _ _
    · exact .gather (fun s x => .completeStationLoad s p tag _ x) s p tag _ _ _
    · exact (KeepsColour.gatherDescriptor s p tag _ _)
    · unfold State.cellFrame
      split
      · exact stray
      · split
        · exact (KeepsColour.takeCells s _ payload)
        · exact stray
    all_goals exact stray

theorem dataFrame (s : State) (p : PortId) (tag : Tag) (payload : List Byte) :
    KeepsColour s (s.dataFrame p tag payload) := by
  unfold State.dataFrame
  split
  · exact .refl s
  · split
    · exact .same rfl
    · exact (KeepsColour.takeData s p tag payload).settle

/-! ### Commands that end early, client links, the transmitter -/

theorem closeStream (s : State) (p : PortId) (replies : Bool) : KeepsColour s (s.closeStream p replies) :=
  .same (s.colourView_closeStream p replies)

/-- An aborted load gives its slot back (R125). -/
theorem abortLoad (s : State) (k : Nat) : KeepsColour s (s.abortLoad k) := by
  unfold State.abortLoad
  split
  · exact .refl s
  · exact .of_table (fun h => (h.dropSlot k).same rfl rfl rfl rfl) rfl rfl

theorem undo (s : State) (p : PortId) (tag : Tag) (j : Job) : KeepsColour s (s.undo p tag j) := by
  cases j
  case tileCells k => exact .abortLoad s k
  case tileRetire k => exact .of_table (fun h => h.mapSlot k fun _ => rfl) rfl rfl
  all_goals exact .same rfl

theorem takeTagAbort (s : State) (p : PortId) (tag : Tag) (target : Byte) :
    KeepsColour s (s.takeTagAbort p tag target) := by
  unfold State.takeTagAbort
  split
  · exact .same rfl
  · rename_i t _
    have aborted : KeepsColour s (s.abortTag p t) := by
      unfold State.abortTag
      split
      · exact .refl s
      · exact (KeepsColour.undo s p t _).trans (.same rfl)
    apply KeepsColour.settle
    exact (aborted.trans (.same rfl))

theorem portReset (s : State) (p : PortId) : KeepsColour s (s.portReset p) := by
  have dropped (u : State) (t : Tag) : KeepsColour u (State.dropTag p u t) := by
    unfold State.dropTag
    split
    · exact .refl u
    · exact (KeepsColour.undo u p t _).trans (.same rfl)
  have cleared : KeepsColour s ((allTags.foldl (State.dropTag p) s).modPort p Port.cleared) :=
    (KeepsColour.foldl dropped allTags s).trans (.same rfl)
  exact (cleared.trans (.closeStream _ p false)).trans (.same rfl)

theorem resetPort (s : State) (p : PortId) (tag : Tag) :
    KeepsColour s ((s.portReset p).answer p tag .done).settle := by
  apply KeepsColour.settle
  exact ((KeepsColour.portReset s p).trans (.same rfl))

theorem clientUp (s : State) (p : PortId) : KeepsColour s (s.clientUp p) := by
  unfold State.clientUp
  split <;> exact .same rfl

theorem clientLoss (s : State) (p : PortId) : KeepsColour s (s.clientLoss p) := by
  unfold State.clientLoss
  split
  · exact .refl s
  · apply KeepsColour.settle
    exact (.after (.portReset _ p) (.same rfl))

theorem badFrame (s : State) (p : PortId) : KeepsColour s (s.badFrame p) := by
  unfold State.badFrame
  split <;> exact .same rfl

theorem frameSent (s : State) (p : PortId) : KeepsColour s (s.frameSent p) := by
  unfold State.frameSent
  split
  · exact .refl s
  · apply KeepsColour.settle
    exact (.after (.foldl (fun s t => .pump s p t) allTags _) (.same rfl))

/-! ### Commands of the other blocks -/

theorem takeMaskLoad (s : State) (p : PortId) (tag : Tag) (empty : Bool) (count : Byte) :
    KeepsColour s (s.takeMaskLoad p tag empty count) := by
  unfold State.takeMaskLoad
  split
  · refine .inIdle (fun s => ?_) s p tag
    split <;> exact .same rfl
  · exact .countTest (fun s => .gatherInIdle s p tag _ _) s p tag _ _ _

theorem takeStationLoad (s : State) (p : PortId) (tag : Tag) (empty : Bool) (count : Byte) :
    KeepsColour s (s.takeStationLoad p tag empty count) := by
  unfold State.takeStationLoad
  split
  · refine .inIdle (fun s => ?_) s p tag
    split <;> exact .same rfl
  · exact .countTest (fun s => .gatherInIdle s p tag _ _) s p tag _ _ _

/-- The back-fill of an ended exposure is queued (R140). -/
theorem endNotice (s : State) (id : Nat) : KeepsColour s (s.endNotice id) := by
  have queue : (s.endNotice id).lineView = s.lineView := by
    unfold State.endNotice Clr.queueBackfill
    split <;> rfl
  exact .of_table (fun h => h.queueBackfill id) (Clr.queueBackfill_tileArea _ _) queue

theorem takeExposureDrop (s : State) (p : PortId) (tag : Tag) (exposure : BitVec 32) :
    KeepsColour s (s.takeExposureDrop p tag exposure) := by
  unfold State.takeExposureDrop
  split
  · exact .same rfl
  · rename_i e _
    split
    case h_3 =>
      have dropped : KeepsColour s { s with
          exs := s.exs.mapLog e.id (fun e => { e with state := .dropped, deadline := none, held := none }) } := .same rfl
      exact settle ((dropped.trans (.endNotice _ e.id)).trans (.same rfl))
    all_goals exact .same rfl

theorem takeTileLoad (s : State) (p : PortId) (tag : Tag) (exposure : BitVec 32) (priority w h : Byte) :
    KeepsColour s (s.takeTileLoad p tag exposure priority w h) := by
  unfold State.takeTileLoad
  split <;> exact .same rfl

/-- A VALID slot is retired: it goes, or waits for its pins, and the sectors are rebuilt (R126, R131). -/
theorem retireTile (s : State) (p : PortId) (tag : Tag) (t : TileSlot) : KeepsColour s (s.retireTile p tag t) := by
  unfold State.retireTile
  split
  · exact .of_table (fun h => (h.dropSlot t.slot).rebuild t.window) rfl rfl
  · exact .of_table (fun h => (h.mapSlot t.slot (f := fun t => { t with state := .retiring, owner := some ⟨p, tag⟩ })
      fun _ => rfl).rebuild t.window) rfl rfl

theorem takeTileRetire (s : State) (p : PortId) (tag : Tag) (slot : Byte) (exposure : BitVec 32) :
    KeepsColour s (s.takeTileRetire p tag slot exposure) := by
  unfold State.takeTileRetire
  split
  · exact .same rfl
  · split
    · exact .same rfl
    · split
      · exact .same rfl
      · split <;> exact .same rfl
      · split
        · exact .retireTile s p tag _
        · exact .same rfl

theorem takeStreamOpen (s : State) (p : PortId) (tag : Tag) (mode start : Byte) (line : BitVec 32) :
    KeepsColour s (s.takeStreamOpen p tag mode start line) := by
  unfold State.takeStreamOpen
  split
  · exact .same rfl
  · split
    · exact .same rfl
    · split
      · exact .same rfl
      · unfold State.openStream
        simp only
        split <;> exact .same rfl

theorem takeStreamClose (s : State) (p : PortId) (tag : Tag) : KeepsColour s (s.takeStreamClose p tag) := by
  apply KeepsColour.settle
  exact (closeStream s p true).trans (.same rfl)

theorem takeLinesRead (s : State) (p : PortId) (tag : Tag) (count : Byte) :
    KeepsColour s (s.takeLinesRead p tag count) := by
  have started (u : State) (n : Nat) : KeepsColour u (u.startRead p tag n) := by
    unfold State.startRead
    simp only
    split
    · exact KeepsColour.after (.beginLine _ p _ _) (.same rfl)
    · exact .same rfl
  refine .countTest (fun s => ?_) s p tag _ _ _
  split
  · split
    · exact .same rfl
    · exact (started s _).settle
  · exact .same rfl

theorem takeLinesRelease (s : State) (p : PortId) (tag : Tag) (n : BitVec 32) :
    KeepsColour s (s.takeLinesRelease p tag n) := by
  unfold State.takeLinesRelease
  split <;> exact .same rfl

theorem takeLinesCheck (s : State) (p : PortId) (tag : Tag) : KeepsColour s (s.takeLinesCheck p tag) :=
  KeepsColour.after (.deliver _ p tag _ _) (.same rfl)

theorem takeLineFind (s : State) (p : PortId) (tag : Tag) (start : BitVec 32) (criterion : Byte)
    (azimuth : Angle) (mask value : Byte) (invert : Bool) :
    KeepsColour s (s.takeLineFind p tag start criterion azimuth mask value invert) := by
  unfold State.takeLineFind
  split <;> exact .same rfl

theorem takeEventSetup (s : State) (p : PortId) (tag : Tag) (enable : BitVec 16) (mode first : Byte) :
    KeepsColour s (s.takeEventSetup p tag enable mode first) := by
  unfold State.takeEventSetup
  split
  · exact .same rfl
  · split
    · exact .same rfl
    · split <;> exact .same rfl

theorem takeEventNext (s : State) (p : PortId) (tag : Tag) : KeepsColour s (s.takeEventNext p tag) := by
  have taken (a : Atn) : KeepsColour s (s.modAtn p (fun _ => a)) := .same rfl
  unfold State.takeEventNext
  rcases (s.atn.get p).next with ⟨a, e, double⟩
  exact (taken a).trans (.deliver _ p tag _ _)

theorem takeEventFreeze (s : State) (p : PortId) (tag : Tag) (onOff : Byte) :
    KeepsColour s (s.takeEventFreeze p tag onOff) := by
  unfold State.takeEventFreeze
  split <;> exact .same rfl

theorem takeCountersRead (s : State) (p : PortId) (tag : Tag) (clear : Bool) :
    KeepsColour s (s.takeCountersRead p tag clear) := by
  refine .trans ?_ (.deliver _ p tag _ _)
  split <;> exact .same rfl

/-! ### The camera, transfers and engines -/

theorem strobeRise (s : State) : KeepsColour s s.strobeRise := by
  unfold State.strobeRise
  split <;> exact .same rfl

theorem strobeFall (s : State) : KeepsColour s s.strobeFall := by
  unfold State.strobeFall
  split
  · exact .refl s
  · split <;> exact .same rfl

theorem strobeTimeout (s : State) : KeepsColour s s.strobeTimeout := by
  unfold State.strobeTimeout
  split
  · exact .refl s
  · split <;> exact .same rfl

theorem tileDeadline (s : State) (id : Nat) : KeepsColour s (s.tileDeadline id) := by
  unfold State.tileDeadline
  split
  · exact .refl s
  · split
    · exact .after (.endNotice _ id) (.same rfl)
    · exact .refl s

/-- A complete load makes its slot VALID, inserts it in the sectors and queues its back-fill (R124). -/
theorem completeLoad (s : State) (k : Nat) : KeepsColour s (s.completeLoad k) := by
  refine .of_table (fun h => ?_) (State.completeLoad_tileArea s k) ?_
  · unfold State.completeLoad
    split
    · exact h
    · rename_i t _
      have indexed := ((h.mapSlot k (f := fun t => { t with state := .valid, owner := none }) fun _ => rfl).insertInIndex
        { t with state := .valid, owner := none }).queueBackfill t.exposure
      simp only
      split
      · exact indexed
      · exact indexed
  · unfold State.completeLoad Clr.queueBackfill
    split
    · rfl
    · simp only
      split <;> split <;> rfl

/-- The tile loader alone writes to the tile area (R124). -/
theorem endLoaderTransfer (s : State) (k work : Nat) : KeepsColour s (s.endLoaderTransfer k work) := by
  unfold State.endLoaderTransfer
  split
  · exact .refl s
  · rename_i chunk rest _
    split
    · exact .refl s
    · rename_i t _
      have written : KeepsColour s { s with clr := { s.clr.mapSlot k (fun t =>
            { t with written := t.written + max 1 (min (min work transferSize) chunk.bytes.length) }) with
          tileArea := Memory.writeList s.clr.tileArea (k * slotBytes + t.written)
            (chunk.bytes.take (max 1 (min (min work transferSize) chunk.bytes.length)))
          loader := if (chunk.bytes.drop (max 1 (min (min work transferSize) chunk.bytes.length))).isEmpty then rest
            else { chunk with bytes := chunk.bytes.drop (max 1 (min (min work transferSize) chunk.bytes.length)) } :: rest } } :=
        .of_clr (fun h => h.of_mapSlot rfl (fun _ => rfl) rfl rfl rfl) (Memory.writeList_wf _ _ _) rfl
      simp only
      split
      · exact written.trans (.completeLoad _ k)
      · exact written

theorem endReaderTransfer (s : State) (p : PortId) (work : Nat) : KeepsColour s (s.endReaderTransfer p work) := by
  unfold State.endReaderTransfer
  split
  · split <;> exact .same rfl
  · exact .refl s

theorem endTransferOf (s : State) (o : TransferOwner) (work : Nat) : KeepsColour s (s.endTransferOf o work) := by
  cases o with
  | ringWriter => exact .refl s
  | clr => exact .of_kept (Kept.endClrTransfer s work) (.endClrTransfer s work) (LineColours.endClrTransfer · work)
  | tileLoader k => exact .endLoaderTransfer s k work
  | reader p => exact .endReaderTransfer s p work

theorem endTransfer (s : State) (work : Nat) : KeepsColour s (s.endTransfer work) := by
  have idle : KeepsColour s { s with rng := { s.rng with inProgress := none } } := .same rfl
  unfold State.endTransfer
  split
  · exact .refl s
  · apply KeepsColour.settle
    split
    · exact idle.trans (.endTransferOf _ _ work)
    · exact idle

theorem firstPassEnd (s : State) : KeepsColour s s.firstPassEnd := by
  unfold State.firstPassEnd
  split
  · exact .endTransfer s 0
  · exact .refl s

theorem backfillStepEnd (s : State) : KeepsColour s s.backfillStepEnd := by
  unfold State.backfillStepEnd
  split
  · exact .endTransfer s 0
  · exact .refl s

theorem tileLoadComplete (s : State) : KeepsColour s s.tileLoadComplete := by
  unfold State.tileLoadComplete
  split
  · exact .refl s
  · exact .endTransfer s _

theorem completeDelivery (s : State) (p : PortId) (r : LinesRead) (l : RingLine) :
    KeepsColour s (s.completeDelivery p r l) := by
  have ended (u : State) : KeepsColour u (u.endRead p r.tag) := by
    unfold State.endRead
    simp only
    split <;> exact .same rfl
  have goesOn (u : State) : KeepsColour u (if r.remaining - 1 = 0 then u.endRead p r.tag
      else match u.deliverable p with
        | none => u.endRead p r.tag
        | some next => u.beginLine p { r with remaining := r.remaining - 1 } next.number) := by
    split
    · exact ended u
    · split
      · exact ended u
      · exact .beginLine u p _ _
  unfold State.completeDelivery
  simp only
  refine .trans ?_ (goesOn _)
  split <;> exact .same rfl

theorem lineDeliveryComplete (s : State) (p : PortId) : KeepsColour s (s.lineDeliveryComplete p) := by
  unfold State.lineDeliveryComplete
  split
  · exact .refl s
  · exact (KeepsColour.completeDelivery s p _ _).settle


end KeepsColour

end Sys2Proof.Machine

namespace Sys2Proof.Machine

namespace KeepsColour

/-! ### Every command, every step -/

theorem wrap (s : State) : KeepsColour s s.wrap := KeepsColour.after (.wrapActions _) (.same rfl)

/-- A command answers the state its meaning gives. -/
theorem of_next {s u t : State} (k : KeepsColour s u)
    (h : (Host.Outcome.next u : Host.Outcome State Fault Refusal) = .next t) : KeepsColour s t := by
  cases h
  exact k

end KeepsColour

theorem exec_keepsColour (c : Instr) (s t : State) (h : exec c s = .next t) : KeepsColour s t := by
  cases c with
  | powerOn straps =>
    have emptied : KeepsColour s (powerOnState (straps.map roleOfStraps) s.pending) := 
      ⟨fun _ => .powerOn, fun _ => ⟨List.Pairwise.nil, fun _ mem => absurd mem List.not_mem_nil⟩, fun _ => .of_empty rfl⟩
    exact emptied.of_next h
  | tbWrap => exact (KeepsColour.wrap s).of_next h
  | quadratureEdge dt axis kind active =>
    exact (KeepsColour.timed (fun e => (KeepsColour.takeEdge e axis kind active).settle) s dt).of_next h
  | indexInactive dt axis => exact (KeepsColour.timed (f := fun e => e.setAng (e.ang.indexInactive axis)) (fun _ => .same rfl) s dt).of_next h
  | stallTimerExpiry dt => exact (KeepsColour.timed .stallExpiry s dt).of_next h
  | rangingLinkUp dt => exact (KeepsColour.timed (fun e => (KeepsColour.rangingUp e)) s dt).of_next h
  | rangingLinkLoss dt => exact (KeepsColour.timed .rangingLoss s dt).of_next h
  | emit dt id time =>
    exact (KeepsColour.timed (.onRecord (fun e => (KeepsColour.takeEmit e id time).settle)) s dt).of_next h
  | echo dt reference delay amplitude width saturated =>
    exact (KeepsColour.timed (.onRecord (fun e => (KeepsColour.takeEcho e ⟨reference, delay, amplitude, width, saturated⟩)))
      s dt).of_next h
  | faultRecord dt code =>
    exact (KeepsColour.timed (.onRecord (fun e => (KeepsColour.takeFaultRecord e code).settle)) s dt).of_next h
  | armedTimerExpiry dt => exact (KeepsColour.timed .armedTimer s dt).of_next h
  | drainTimerExpiry dt => exact (KeepsColour.timed .drainTimer s dt).of_next h
  | abandonmentReport dt => exact (KeepsColour.timed (fun e => (KeepsColour.takeAbandonment e)) s dt).of_next h
  | dramTransferEnd dt work => exact (KeepsColour.timed (.endTransfer · work) s dt).of_next h
  | firstPassEnd dt => exact (KeepsColour.timed .firstPassEnd s dt).of_next h
  | backfillStepEnd dt => exact (KeepsColour.timed .backfillStepEnd s dt).of_next h
  | strobeRise dt => exact (KeepsColour.timed .strobeRise s dt).of_next h
  | strobeFall dt => exact (KeepsColour.timed .strobeFall s dt).of_next h
  | strobeTimeoutExpiry dt => exact (KeepsColour.timed .strobeTimeout s dt).of_next h
  | tileDeadlineExpiry dt exposure =>
    exact (KeepsColour.timed (fun e => (KeepsColour.tileDeadline e exposure.toNat).settle) s dt).of_next h
  | tileLoadComplete dt => exact (KeepsColour.timed .tileLoadComplete s dt).of_next h
  | lineDeliveryComplete dt p => exact (KeepsColour.timed (.lineDeliveryComplete · p) s dt).of_next h
  | clientLinkUp dt p => exact (KeepsColour.timed (.clientUp · p) s dt).of_next h
  | clientLinkLoss dt p => exact (KeepsColour.timed (.clientLoss · p) s dt).of_next h
  | badFrame dt p => exact (KeepsColour.timed (.badFrame · p) s dt).of_next h
  | dataOut dt p tag payload => exact (KeepsColour.timed (.dataFrame · p tag payload) s dt).of_next h
  | frameTransmitted dt p => exact (KeepsColour.timed (.frameSent · p) s dt).of_next h
  | unknownCommand dt p tag code =>
    exact (KeepsColour.timed (.client (.refuse · p tag .arg 0 _) p tag everyRole) s dt).of_next h
  | identify dt p tag => exact (KeepsColour.timed (.client (.deliver · p tag _ _) p tag everyRole) s dt).of_next h
  | statusRead dt p tag =>
    exact (KeepsColour.timed (.client (fun e => .deliver e p tag _ _) p tag everyRole) s dt).of_next h
  | countersRead dt p tag clear =>
    exact (KeepsColour.timed (.client (.takeCountersRead · p tag clear) p tag everyRole) s dt).of_next h
  | senseRead dt p tag =>
    exact (KeepsColour.timed (.clientKeepSense (fun e => .deliver e p tag _ _) p tag) s dt).of_next h
  | tagAbort dt p tag target =>
    exact (KeepsColour.timed (.clientSkipTag (.takeTagAbort · p tag target) p) s dt).of_next h
  | portReset dt p tag => exact (KeepsColour.timed (.clientSkipTag (.resetPort · p tag) p) s dt).of_next h
  | eventSetup dt p tag enable mode first =>
    exact (KeepsColour.timed (.client (.takeEventSetup · p tag enable mode first) p tag everyRole) s dt).of_next h
  | eventNext dt p tag => exact (KeepsColour.timed (.client (.takeEventNext · p tag) p tag everyRole) s dt).of_next h
  | eventFreeze dt p tag onOff =>
    exact (KeepsColour.timed (.client (.takeEventFreeze · p tag onOff) p tag everyRole) s dt).of_next h
  | scanSetup dt p tag =>
    exact (KeepsColour.timed (.client (.gatherInIdle · p tag _ _) p tag onlyControl) s dt).of_next h
  | scanStart dt p tag => exact (KeepsColour.timed (.client (.takeScanStart · p tag) p tag onlyControl) s dt).of_next h
  | scanStop dt p tag => exact (KeepsColour.timed (.client (.takeScanStop · p tag) p tag onlyControl) s dt).of_next h
  | faultClear dt p tag => exact (KeepsColour.timed (.client (.takeFaultClear · p tag) p tag onlyControl) s dt).of_next h
  | restart dt p tag => exact (KeepsColour.timed (.client (.takeRestart · p tag) p tag onlyControl) s dt).of_next h
  | mirrorCalibrate dt p tag =>
    exact (KeepsColour.timed (.client (.gatherInIdle · p tag _ _) p tag onlyControl) s dt).of_next h
  | maskLoad dt p tag empty count =>
    exact (KeepsColour.timed (.client (.takeMaskLoad · p tag empty count) p tag onlyControl) s dt).of_next h
  | cameraSetup dt p tag =>
    exact (KeepsColour.timed (.client (.gatherInIdle · p tag _ _) p tag imagingOrControl) s dt).of_next h
  | stationLoad dt p tag empty count =>
    exact (KeepsColour.timed (.client (.takeStationLoad · p tag empty count) p tag onlyImaging) s dt).of_next h
  | exposuresRead dt p tag after count =>
    exact (KeepsColour.timed (.client (fun e => .countTest (fun e => .deliver e p tag _ _) e p tag _ _ _) p tag everyRole)
      s dt).of_next h
  | exposureDrop dt p tag exposure =>
    exact (KeepsColour.timed (.client (.takeExposureDrop · p tag exposure) p tag onlyImaging) s dt).of_next h
  | tileLoad dt p tag exposure priority w hh =>
    exact (KeepsColour.timed (.client (.takeTileLoad · p tag exposure priority w hh) p tag onlyImaging) s dt).of_next h
  | tileRetire dt p tag slot exposure =>
    exact (KeepsColour.timed (.client (.takeTileRetire · p tag slot exposure) p tag onlyImaging) s dt).of_next h
  | tilesList dt p tag =>
    exact (KeepsColour.timed (.client (fun e => .deliver e p tag _ _) p tag everyRole) s dt).of_next h
  | streamOpen dt p tag mode start startLine =>
    exact (KeepsColour.timed (.client (.takeStreamOpen · p tag mode start startLine) p tag everyRole) s dt).of_next h
  | streamClose dt p tag => exact (KeepsColour.timed (.client (.takeStreamClose · p tag) p tag everyRole) s dt).of_next h
  | linesRead dt p tag count =>
    exact (KeepsColour.timed (.client (.takeLinesRead · p tag count) p tag everyRole) s dt).of_next h
  | linesRelease dt p tag n =>
    exact (KeepsColour.timed (.client (.takeLinesRelease · p tag n) p tag everyRole) s dt).of_next h
  | linesCheck dt p tag => exact (KeepsColour.timed (.client (.takeLinesCheck · p tag) p tag everyRole) s dt).of_next h
  | lineFind dt p tag startLine criterion azimuth mask value invert =>
    exact (KeepsColour.timed (.client (.takeLineFind · p tag startLine criterion azimuth mask value invert) p tag everyRole)
      s dt).of_next h

theorem step_keepsColour (s t : State) (h : step s = .next t) : KeepsColour s t := by
  unfold step at h
  split at h
  · exact (KeepsColour.elapse s 1).of_next h
  · rename_i c rest _
    have taken : KeepsColour s { s with pending := rest } := .same rfl
    exact taken.trans (exec_keepsColour c _ t h)


/-- Settles O57: the count of a header changes with the records of its line, which only a pass writes
(`LineColours.firstPass_point`, `LineColours.step_point`), and what the pass has counted is in its tally until it ends
(`LineColours.endFirstPass`, `LineColours.endStep`). -/
theorem pendingCountKept : Obligations.PendingCountKept := fun s t inv h =>
  (lineColourInv_iff t).2 ((step_keepsColour s t h).lines ((lineColourInv_iff s).1 inv))

/-- Settles O56: a load takes a FREE slot (`KeepsColour.acceptTile`), the sector lists are built no longer than 8
(`Clr.Table.insertInIndex`, `Clr.Table.rebuild`), and the tile loader alone writes to the tile area
(`KeepsColour.endLoaderTransfer`). -/
theorem tableInvariantKept : Obligations.TableInvariantKept :=
  ⟨fun s t inv h => (tableInv_iff t).2 ((step_keepsColour s t h).table ((tableInv_iff s).1 inv)),
    fun s t inv h => (step_keepsColour s t h).area inv⟩

end Sys2Proof.Machine

namespace Sys2Proof.Machine

/-! ### TILE RETIRE (R126, R127) -/

/-- The slot found under a number bears it. -/
theorem Clr.slot_number {c : Clr} {k : Nat} {t : TileSlot} (found : c.slot k = some t) : t.slot = k :=
  of_decide_eq_true (List.find?_some (p := fun t : TileSlot => decide (t.slot = k)) found)

/-- TILE RETIRE on an IMAGING port takes its own rule. -/
theorem exec_tileRetire_imaging {dt : Nat} {p : PortId} {tag : Tag} {s e : State} (he : e = s.elapse dt)
    (ready : e.ready p tag) (imaging : e.isImaging p) (slot : Byte) (id : BitVec 32) :
    exec (.tileRetire dt p tag slot id) s = .next ((e.clearSense p).takeTileRetire p tag slot id) := by
  subst he
  exact congrArg Host.Outcome.next (client_ready ready (onlyImaging_of imaging) _)

section TileRetireCases

variable {s : State} {slot : Byte} {id : BitVec 32} {t : TileSlot}

theorem State.takeTileRetire_unnamed (unnamed : 47 < slot.toNat ∨ s.clr.slot slot.toNat = none) (p : PortId) (tag : Tag)
    (id : BitVec 32) : s.takeTileRetire p tag slot id = s.refuse p tag .arg 0 (some 1) := by
  unfold State.takeTileRetire
  split
  · rfl
  · rename_i t found
    rw [found] at unnamed
    have beyond : slotCount ≤ slot.toNat := unnamed.resolve_right (Option.some_ne_none t)
    rw [if_pos beyond]

theorem State.takeTileRetire_loading (low : slot.toNat ≤ 47) (found : s.clr.slot slot.toNat = some t)
    (loading : t.state = .loading) (p : PortId) (tag : Tag) (id : BitVec 32) :
    s.takeTileRetire p tag slot id = s.refuse p tag .arg 0 (some 1) := by
  have within : ¬ slotCount ≤ slot.toNat := Nat.not_le.2 (Nat.lt_succ_of_le low)
  simp only [State.takeTileRetire, found, if_neg within, loading]

theorem State.takeTileRetire_other (low : slot.toNat ≤ 47) (found : s.clr.slot slot.toNat = some t)
    (taken : t.state ≠ .loading) (other : t.exposure ≠ id.toNat) (p : PortId) (tag : Tag) :
    s.takeTileRetire p tag slot id = s.refuse p tag .gone 0 none := by
  have within : ¬ slotCount ≤ slot.toNat := Nat.not_le.2 (Nat.lt_succ_of_le low)
  cases state : t.state with
  | loading => exact absurd state taken
  | valid => simp only [State.takeTileRetire, found, if_neg within, state, if_neg other]
  | retiring => simp only [State.takeTileRetire, found, if_neg within, state, if_neg other]

theorem State.takeTileRetire_retiring (low : slot.toNat ≤ 47) (found : s.clr.slot slot.toNat = some t)
    (retiring : t.state = .retiring) (same : t.exposure = id.toNat) (p : PortId) (tag : Tag) :
    s.takeTileRetire p tag slot id = s.refuse p tag .state 0 none := by
  have within : ¬ slotCount ≤ slot.toNat := Nat.not_le.2 (Nat.lt_succ_of_le low)
  simp only [State.takeTileRetire, found, if_neg within, retiring, if_pos same]

theorem State.takeTileRetire_valid (low : slot.toNat ≤ 47) (found : s.clr.slot slot.toNat = some t)
    (valid : t.state = .valid) (same : t.exposure = id.toNat) (p : PortId) (tag : Tag) :
    s.takeTileRetire p tag slot id = s.retireTile p tag t := by
  have within : ¬ slotCount ≤ slot.toNat := Nat.not_le.2 (Nat.lt_succ_of_le low)
  simp only [State.takeTileRetire, found, if_neg within, valid, if_pos same]

/-- A VALID slot without a pin is FREE at once. -/
theorem State.retireTile_unpinned (free : t.pins = 0) (s : State) (p : PortId) (tag : Tag) :
    s.retireTile p tag t = { s.answer p tag .done with clr := (s.clr.dropSlot t.slot).rebuild t.window } := by
  rw [State.retireTile, if_pos free]
  rfl

/-- A pinned slot waits as RETIRING, and its command for the pins to go. -/
theorem State.retireTile_pinned (pinned : t.pins ≠ 0) (s : State) (p : PortId) (tag : Tag) :
    s.retireTile p tag t = { (s.hold p tag (.tileRetire t.slot)).accept p tag with
      clr := (s.clr.mapSlot t.slot (fun t => { t with state := .retiring, owner := some ⟨p, tag⟩ })).rebuild t.window } := by
  rw [State.retireTile, if_neg pinned]
  rfl

end TileRetireCases

/-- Settles O42: one case of `takeTileRetire` for each state of the slot. -/
theorem tileRetireCommand : Obligations.TileRetireCommand := by
  intro dt p tag slot id s e he ready
  refine ⟨fun other => ?_, fun imaging unnamed => ?_, fun t imaging low found => ?_⟩
  · subst he
    exact congrArg Host.Outcome.next (client_role ready (onlyImaging_of_not other) _)
  · rw [exec_tileRetire_imaging he ready imaging, State.takeTileRetire_unnamed (s := e.clearSense p) unnamed,
      State.refuse_taken ready.1]
  · have number := Clr.slot_number found
    have found : (e.clearSense p).clr.slot slot.toNat = some t := found
    rw [exec_tileRetire_imaging he ready imaging]
    refine ⟨fun loading => ?_, fun taken other => ?_, fun retiring same => ?_, fun valid same free => ?_,
      fun valid same pinned => ?_⟩
    · rw [State.takeTileRetire_loading low found loading, State.refuse_taken ready.1]
    · rw [State.takeTileRetire_other low found taken other, State.refuse_taken ready.1]
    · rw [State.takeTileRetire_retiring low found retiring same, State.refuse_taken ready.1]
    · rw [State.takeTileRetire_valid low found valid same, State.retireTile_unpinned free, State.reply_taken ready.1, number]
      rfl
    · rw [State.takeTileRetire_valid low found valid same, State.retireTile_pinned pinned, State.hold_taken,
        State.accept_held ready.1, number]
      rfl

end Sys2Proof.Machine

namespace Sys2Proof.Machine

/-! ### The colour of one point (R114, R132 to R134) -/

theorem clampInt_eq {lo hi : Int} (ordered : lo ≤ hi) (x : Int) : clampInt lo hi x = max lo (min hi x) := by
  unfold clampInt
  split
  · omega
  · split <;> omega

theorem colourRange_nil {q : ScanParams} {p : Point} (echoes : p.echoes = []) : colourRange q p = q.defaultColourRange := by
  rw [colourRange, echoes]

theorem colourRange_cons {q : ScanParams} {p : Point} {y : Echo} {rest : List Echo} (echoes : p.echoes = y :: rest) :
    colourRange q p = if y.range.toNat = 0 then q.defaultColourRange else y.range.toNat := by
  have zero : y.range = 0 ↔ y.range.toNat = 0 := BitVec.toNat_eq
  rw [colourRange, echoes]
  simp only [zero]

theorem AngularWindow.contains_iff (w : AngularWindow) (a m : Angle) : w.contains a m = true ↔
    (a - w.azStart).toNat < w.azWidth ∧ w.mLow.toNat ≤ m.toNat ∧ m.toNat < w.mHigh.toNat := by
  rw [AngularWindow.contains, Bool.and_eq_true, Bool.and_eq_true, decide_eq_true_iff, decide_eq_true_iff, decide_eq_true_iff,
    and_assoc]

theorem ExposureState.isLive_iff (st : ExposureState) : st.isLive = true ↔ st = .exposed ∨ st = .loading := by
  cases st <;> decide

/-- The first tile of the sector's list that holds the direction (R133). -/
theorem Clr.tileAt_first {c : Clr} {a m : Angle} {before after : List TileSlot} {t : TileSlot}
    (listed : c.listed (c.sectors.getD (a.toNat / sectorWidth) []) = before ++ t :: after)
    (passed : ∀ y ∈ before, y.window.contains a m = false) (holds : t.window.contains a m = true) :
    c.tileAt a m = some t := by
  rw [Clr.tileAt, listed]
  refine List.find?_eq_some_iff_append.2 ⟨holds, before, after, rfl, fun y mem => ?_⟩
  rw [passed y mem]
  rfl

theorem Clr.tileAt_none {c : Clr} {a m : Angle}
    (passed : ∀ y ∈ c.listed (c.sectors.getD (a.toNat / sectorWidth) []), y.window.contains a m = false) :
    c.tileAt a m = none :=
  List.find?_eq_none.2 fun y mem => Bool.eq_false_iff.1 (passed y mem)

/-- A record that waits for a tile over the direction. -/
def Exposure.waitsAt (e : Exposure) (a m : Angle) : Bool :=
  e.state.isLive && ((e.window.map (fun w => w.contains a m)).getD false)

theorem Exposure.waitsAt_iff (e : Exposure) (a m : Angle) : e.waitsAt a m = true ↔
    (e.state = .exposed ∨ e.state = .loading) ∧ ∃ w, e.window = some w ∧ w.contains a m = true := by
  rw [Exposure.waitsAt, Bool.and_eq_true, ExposureState.isLive_iff]
  refine and_congr_right fun _ => ?_
  cases e.window with
  | none => simp
  | some w => simp

theorem Exs.liveExposureAt_eq (x : Exs) (a m : Angle) :
    x.liveExposureAt a m = (x.log.find? (fun e => e.waitsAt a m)).map Exposure.id := rfl

/-- The log ascends, so the first record that waits has the lowest id (R114). -/
theorem Exs.liveExposureAt_lowest {x : Exs} {a m : Angle} {y : Exposure} (mem : y ∈ x.log)
    (ascending : (x.log.map Exposure.id).Pairwise (· < ·)) (waits : y.waitsAt a m = true)
    (lowest : ∀ z ∈ x.log, z.waitsAt a m = true → y.id ≤ z.id) : x.liveExposureAt a m = some y.id := by
  rw [Exs.liveExposureAt_eq]
  cases found : x.log.find? (fun e => e.waitsAt a m) with
  | none => exact absurd waits (List.find?_eq_none.1 found y mem)
  | some z =>
    obtain ⟨zWaits, before, after, log, passed⟩ := List.find?_eq_some_iff_append.1 found
    rw [log, List.map_append, List.map_cons, List.pairwise_append, List.pairwise_cons] at ascending
    obtain ⟨-, ⟨above, -⟩, -⟩ := ascending
    rw [Option.map_some]
    rw [log, List.mem_append, List.mem_cons] at mem
    rcases mem with mem | rfl | mem
    · have passed := passed y mem
      rw [waits] at passed
      cases passed
    · rfl
    · have least : y.id ≤ z.id := lowest z (log ▸ List.mem_append_right _ List.mem_cons_self) zWaits
      exact absurd (above _ (List.mem_map_of_mem mem)) (Nat.not_lt.2 least)

theorem Exs.liveExposureAt_none {x : Exs} {a m : Angle} (unwaited : ∀ y ∈ x.log, y.waitsAt a m = false) :
    x.liveExposureAt a m = none := by
  rw [Exs.liveExposureAt_eq, List.find?_eq_none.2 fun y mem => Bool.eq_false_iff.1 (unwaited y mem)]
  rfl

/-- Settles O44: the tile found, else the exposure found, else neither. -/
theorem colourOfAPoint : Obligations.ColourOfAPoint := by
  intro q c x p range shift a list holds waits noEcho echo hshift ha hlist hholds hwaits ascending
  have range_eq : colourRange q p = range := by
    cases echoes : p.echoes with
    | nil => rw [colourRange_nil echoes, noEcho echoes]
    | cons y rest => rw [colourRange_cons echoes, echo y rest echoes]
  have azimuth : colourAzimuth q p = a := by
    rw [ha, hshift, ← range_eq, colourAzimuth, parallaxShift, clampInt_eq (by decide)]
    rfl
  have contains (w : AngularWindow) : w.contains a p.m = true ↔ holds w := (w.contains_iff a p.m).trans (hholds w).symm
  have misses {w : AngularWindow} (h : ¬ holds w) : w.contains a p.m = false := by
    rw [Bool.eq_false_iff, Ne, contains]
    exact h
  have waitsAt (y : Exposure) : y.waitsAt a p.m = true ↔ waits y := by
    rw [y.waitsAt_iff, hwaits]
    simp only [contains]
  have listed : c.listed (c.sectors.getD (a.toNat / sectorWidth) []) = list := hlist.symm
  refine ⟨fun before after t column row address split passed held hc hr hadd => ?_, fun y mem none_holds wait lowest => ?_,
    fun none_holds none_waits => ?_⟩
  · have found : c.tileAt a p.m = some t :=
      Clr.tileAt_first (listed.trans split) (fun y mem => misses (passed y mem)) ((contains _).2 held)
    simp only [evaluate, azimuth, found, hadd, hr, hc]
    rfl
  · have none_found : c.tileAt a p.m = none := Clr.tileAt_none (listed ▸ fun t mem => misses (none_holds t mem))
    have live : x.liveExposureAt a p.m = some y.id := Exs.liveExposureAt_lowest mem ascending ((waitsAt y).2 wait)
      fun z hz zWaits => lowest z hz ((waitsAt z).1 zWaits)
    simp only [evaluate, azimuth, none_found, live]
    rfl
  · have none_found : c.tileAt a p.m = none := Clr.tileAt_none (listed ▸ fun t mem => misses (none_holds t mem))
    have unwaited : x.liveExposureAt a p.m = none := Exs.liveExposureAt_none fun y mem => by
      rw [Bool.eq_false_iff, Ne, waitsAt]
      exact none_waits y mem
    simp only [evaluate, azimuth, none_found, unwaited]

end Sys2Proof.Machine

namespace Sys2Proof.Machine

/-! ### Ranking (R129) -/

theorem TileSlot.above_iff (t u : TileSlot) :
    t.above u = true ↔ u.priority < t.priority ∨ (t.priority = u.priority ∧ u.exposure < t.exposure) := by
  rw [TileSlot.above, Bool.or_eq_true, Bool.and_eq_true, decide_eq_true_iff, decide_eq_true_iff, decide_eq_true_iff]

theorem TileSlot.above_trans {t u v : TileSlot} (h : t.above u = true) (k : u.above v = true) : t.above v = true := by
  rw [TileSlot.above_iff] at h k ⊢
  omega

/-- In rank order: none is followed by one that ranks above it. -/
def Ranked (ts : List TileSlot) : Prop := ts.Pairwise (fun x y => y.above x = false)

/-- A slot goes behind those it does not rank above and before the first that it does. -/
theorem insertRanked_split {t : TileSlot} {higher lower : List TileSlot} (passed : ∀ x ∈ higher, t.above x = false)
    (before : ∀ x rest, lower = x :: rest → t.above x = true) : insertRanked t (higher ++ lower) = higher ++ t :: lower := by
  induction higher with
  | nil =>
    cases lower with
    | nil => rfl
    | cons x rest => exact if_pos (before x rest rfl)
  | cons u us ih =>
    have behind : ¬ t.above u = true := by
      rw [passed u List.mem_cons_self]
      exact Bool.false_ne_true
    rw [List.cons_append, insertRanked, if_neg behind, ih fun x mem => passed x (List.mem_cons_of_mem _ mem)]
    rfl

theorem insertRanked_perm (t : TileSlot) (ts : List TileSlot) : (insertRanked t ts).Perm (t :: ts) := by
  induction ts with
  | nil => exact List.Perm.refl _
  | cons u us ih =>
    unfold insertRanked
    split
    · exact List.Perm.refl _
    · exact (ih.cons u).trans (List.Perm.swap t u us)

theorem Ranked.insertRanked {ts : List TileSlot} (ranked : Ranked ts) (t : TileSlot) : Ranked (insertRanked t ts) := by
  induction ts with
  | nil => exact List.pairwise_singleton _ _
  | cons u us ih =>
    obtain ⟨first, rest⟩ := List.pairwise_cons.1 ranked
    unfold Machine.insertRanked
    split
    · rename_i above
      refine List.pairwise_cons.2 ⟨fun v mem => ?_, ranked⟩
      rw [Bool.eq_false_iff]
      intro higher
      have best : v.above u = true := TileSlot.above_trans higher above
      rcases List.mem_cons.1 mem with rfl | mem
      · rw [TileSlot.above_iff] at best
        omega
      · rw [first v mem] at best
        cases best
    · rename_i behind
      refine List.pairwise_cons.2 ⟨fun v mem => ?_, ih rest⟩
      rcases List.mem_cons.1 ((insertRanked_perm t us).subset mem) with rfl | mem
      · exact Bool.eq_false_iff.2 behind
      · exact first v mem

/-- Slots put in rank order, one after another. -/
theorem foldl_insertRanked (ts : List TileSlot) {acc : List TileSlot} (ranked : Ranked acc) :
    Ranked (ts.foldl (fun acc t => insertRanked t acc) acc) ∧
    (ts.foldl (fun acc t => insertRanked t acc) acc).Perm (ts ++ acc) := by
  induction ts generalizing acc with
  | nil => exact ⟨ranked, List.Perm.refl _⟩
  | cons t ts ih =>
    obtain ⟨sorted, perm⟩ := ih (ranked.insertRanked t)
    exact ⟨sorted, perm.trans (((insertRanked_perm t acc).append_left ts).trans List.perm_middle)⟩

/-! ### The sector lists one by one (R129 to R131) -/

theorem AngularWindow.overlaps_iff (w : AngularWindow) (k : Nat) : w.overlaps k = true ↔
    (BitVec.ofNat 24 (k * 262144) - w.azStart).toNat < w.azWidth ∨ w.azStart.toNat / 262144 = k := by
  rw [AngularWindow.overlaps, AngularWindow.containsAz, Bool.or_eq_true, decide_eq_true_iff, decide_eq_true_iff]
  rfl

theorem Clr.numbered_eq (c : Clr) : c.numbered = (List.range c.sectors.length).map (fun k => (c.sectors.getD k [], k)) := by
  refine List.ext_getElem (by simp [Clr.numbered]) fun k hk _ => ?_
  have below : k < c.sectors.length := by simpa [Clr.numbered] using hk
  simp [Clr.numbered, List.getElem?_eq_getElem below]

/-- What one sector list becomes as a slot is inserted, and whether the insertion counts as an exclusion. -/
def Clr.insertedIn (c : Clr) (t : TileSlot) (k : Nat) : List Nat × Bool :=
  if t.window.overlaps k then insertInSector c t (c.sectors.getD k []) else (c.sectors.getD k [], false)

theorem Clr.insertInIndex_eq (c : Clr) (t : TileSlot) : c.insertInIndex t = { c with
    sectors := (List.range c.sectors.length).map (fun k => (c.insertedIn t k).1)
    counters := { c.counters with
      sectorExclusions := bump c.counters.sectorExclusions
        ((List.range c.sectors.length).countP (fun k => (c.insertedIn t k).2)) } } := by
  simp only [Clr.insertInIndex, Clr.numbered_eq, List.map_map, List.countP_map]
  rfl

theorem Clr.rebuild_eq (c : Clr) (w : AngularWindow) : c.rebuild w = { c with
    sectors := (List.range c.sectors.length).map (fun k => if w.overlaps k then c.bestOf k else c.sectors.getD k []) } := by
  simp only [Clr.rebuild, Clr.numbered_eq, List.map_map]
  rfl

theorem getD_map_range {n k : Nat} (below : k < n) (f : Nat → List Nat) : ((List.range n).map f).getD k [] = f k := by
  simp [below]

section InsertInSector

variable {c : Clr} {t : TileSlot} {sector : List Nat}

theorem insertInSector_room (room : (c.listed sector).length < 8) :
    insertInSector c t sector = ((insertRanked t (c.listed sector)).map TileSlot.slot, false) := if_pos room

/-- A full list excludes its last slot, or the new one. -/
theorem insertInSector_full {others : List TileSlot} {last : TileSlot} (full : 8 ≤ (c.listed sector).length)
    (listed : c.listed sector = others ++ [last]) : insertInSector c t sector =
      if t.above last then ((insertRanked t others).map TileSlot.slot, true) else (sector, true) := by
  unfold insertInSector
  have crowded : ¬ (c.listed sector).length < sectorCapacity := Nat.not_lt.2 full
  simp only [if_neg crowded]
  rw [listed, List.getLast?_concat, List.dropLast_concat]

theorem insertInSector_excludes (c : Clr) (t : TileSlot) (sector : List Nat) :
    (insertInSector c t sector).2 = decide (8 ≤ (c.listed sector).length) := by
  by_cases room : (c.listed sector).length < 8
  · rw [insertInSector_room room, decide_eq_false (Nat.not_le.2 room)]
  · have full := Nat.not_lt.1 room
    have filled : c.listed sector ≠ [] := fun empty => by
      rw [empty] at full
      exact absurd full (by decide)
    rw [insertInSector_full full (List.dropLast_append_getLast filled).symm, decide_eq_true full]
    split <;> rfl

end InsertInSector

theorem sectorInsertion : Statement.SectorInsertion := by
  intro c d t overlaps _ above hd hover habove
  have covers (k : Nat) : t.window.overlaps k = true ↔ overlaps k := (t.window.overlaps_iff k).trans (hover k).symm
  have ranks (x y : TileSlot) : x.above y = true ↔ above x y := (x.above_iff y).trans (habove x y).symm
  have behind {x : TileSlot} (h : ¬ above t x) : t.above x = false := by
    rw [Bool.eq_false_iff, Ne, ranks]
    exact h
  rw [c.insertInIndex_eq t] at hd
  subst hd
  refine ⟨⟨_, _, rfl⟩, by simp only [List.length_map, List.length_range], ?_, fun k list below hlist => ?_⟩
  · show bump _ _ = _
    refine congrArg (bump c.counters.sectorExclusions) (List.countP_congr fun k _ => ?_)
    unfold Clr.insertedIn
    split
    · rename_i here
      rw [insertInSector_excludes, decide_eq_true ((covers k).1 here), Bool.true_and]
      rfl
    · rename_i away
      rw [decide_eq_false (mt (covers k).2 away), Bool.false_and]
  · have listed : c.listed (c.sectors.getD k []) = list := hlist.symm
    simp only [getD_map_range below]
    refine ⟨fun away => ?_, fun higher lower here room split passed before => ?_,
      fun higher lower last here full split best passed before => ?_, fun others last here full split worst => ?_⟩
    · rw [Clr.insertedIn, if_neg (mt (covers k).1 away)]
    · rw [Clr.insertedIn, if_pos ((covers k).2 here), insertInSector_room (listed ▸ room), listed, split,
        insertRanked_split (fun x mem => behind (passed x mem)) (fun x rest first => (ranks t x).2 (before x rest first))]
    · rw [Clr.insertedIn, if_pos ((covers k).2 here), insertInSector_full (listed ▸ full) (listed.trans split),
        if_pos ((ranks t last).2 best),
        insertRanked_split (fun x mem => behind (passed x mem)) (fun x rest first => (ranks t x).2 (before x rest first))]
    · rw [Clr.insertedIn, if_pos ((covers k).2 here), insertInSector_full (listed ▸ full) (listed.trans split),
        if_neg (mt (ranks t last).1 worst)]

theorem sectorRebuild : Statement.SectorRebuild := by
  intro c d w overlaps _ hd hover
  have covers (v : AngularWindow) (k : Nat) : v.overlaps k = true ↔ overlaps v k := (v.overlaps_iff k).trans (hover v k).symm
  rw [c.rebuild_eq w] at hd
  subst hd
  refine ⟨⟨_, rfl⟩, by simp only [List.length_map, List.length_range], fun k below => ?_⟩
  simp only [getD_map_range below]
  refine ⟨fun away => if_neg (mt (covers w k).1 away), fun here => ?_⟩
  rw [if_pos ((covers w k).2 here)]
  obtain ⟨ranked, perm⟩ := foldl_insertRanked
    (c.slots.filter (fun t => decide (t.state = .valid) && t.window.overlaps k)) List.Pairwise.nil
  refine ⟨_, rfl, ?_, ranked.imp fun {x y} lower => ?_⟩
  · rw [List.append_nil] at perm
    refine perm.trans (List.Perm.of_eq (List.filter_congr fun t _ => ?_))
    rw [Bool.eq_iff_iff, Bool.and_eq_true, Bool.and_eq_true, covers, decide_eq_true_iff (p := overlaps _ _)]
  · rw [eq_comm (a := x.priority), ← TileSlot.above_iff, lower]
    exact Bool.false_ne_true

/-- Settles O43: the insertion in rank order, and the rebuild from the slots still VALID. -/
theorem sectorIndex : Obligations.SectorIndex := ⟨sectorInsertion, sectorRebuild⟩

end Sys2Proof.Machine

namespace Sys2Proof.Machine

/-! ### TILE LOAD's command block (R122) -/

theorem gridOf_eq (b : Byte) : gridOf b = if b.toNat = 0 then 256 else b.toNat := by
  have zero : b = 0 ↔ b.toNat = 0 := BitVec.toNat_eq
  rw [gridOf]
  simp only [zero]

theorem State.anyJobOn_iff (s : State) (p : PortId) (f : Job → Bool) :
    s.anyJobOn p f = true ↔ ∃ x j, (s.port p).tags.get x = some j ∧ f j = true := by
  have holds (o : Option Job) : (o.map f).getD false = true ↔ ∃ j, o = some j ∧ f j = true := by
    cases o with
    | none => simp
    | some j => simp
  rw [State.anyJobOn, List.any_eq_true]
  constructor
  · rintro ⟨o, mem, job⟩
    obtain ⟨x, rfl⟩ : ∃ x, (s.port p).tags.get x = o := by
      simp only [Quad.toList, List.mem_cons, List.not_mem_nil, or_false] at mem
      rcases mem with rfl | rfl | rfl | rfl
      exacts [⟨0, rfl⟩, ⟨1, rfl⟩, ⟨2, rfl⟩, ⟨3, rfl⟩]
    exact ⟨x, (holds _).1 job⟩
  · rintro ⟨x, job⟩
    refine ⟨(s.port p).tags.get x, ?_, (holds _).2 job⟩
    match x with
    | 0 => exact List.mem_cons_self
    | 1 => exact List.mem_cons_of_mem _ List.mem_cons_self
    | 2 => exact List.mem_cons_of_mem _ (List.mem_cons_of_mem _ List.mem_cons_self)
    | 3 => exact List.mem_cons_of_mem _ (List.mem_cons_of_mem _ (List.mem_cons_of_mem _ List.mem_cons_self))

theorem tileLoadBegins : Statement.TileLoadBegins := by
  intro dt p tag id priority w h s e he ready imaging
  have taken : exec (.tileLoad dt p tag id priority w h) s =
      .next ((e.clearSense p).takeTileLoad p tag id priority w h) := by
    subst he
    exact congrArg Host.Outcome.next (client_ready ready (onlyImaging_of imaging) _)
  have jobs : (e.clearSense p).anyJobOn p Job.isTileLoad = e.anyJobOn p Job.isTileLoad := by
    rw [State.anyJobOn, State.clearSense_eq, State.port_withPort_same]
    rfl
  rw [taken, State.takeTileLoad, jobs]
  refine ⟨fun alone => ?_, fun another => ?_⟩
  · have idle : ¬ e.anyJobOn p Job.isTileLoad = true := by
      rw [State.anyJobOn_iff]
      rintro ⟨x, j, held, load⟩
      rw [alone x j held] at load
      cases load
    rw [if_neg idle, State.hold_taken, gridOf_eq, gridOf_eq]
  · rw [if_pos ((State.anyJobOn_iff _ _ _).2 another), State.reply_taken ready.1]

/-! ### A DATA-OUT frame reaches its TILE LOAD (R122, R167, R171) -/

theorem exec_dataOut {dt : Nat} {p : PortId} {payload : List Byte} {s e : State} (he : e = s.elapse dt)
    (up : (e.port p).link = .up) (least : 1 ≤ payload.length) (most : payload.length ≤ 1024) (tag : Tag) :
    exec (.dataOut dt p tag payload) s = .next (e.takeData p tag payload).settle := by
  have formed : ¬ (payload.length = 0 ∨ maxPayload < payload.length) :=
    not_or.2 ⟨Nat.ne_of_gt least, Nat.not_lt.2 most⟩
  have framed : e.dataFrame p tag payload = (e.takeData p tag payload).settle := by
    rw [State.dataFrame, up]
    exact if_neg formed
  rw [← framed, he]
  rfl

theorem State.takeData_descriptor {s : State} {p : PortId} {tag : Tag} {ops : TileOperands} {b : List Byte}
    (job : (s.port p).tags.get tag = some (.tileDescriptor ops b)) {payload : List Byte} (whole : 12 ≤ (b ++ payload).length) :
    s.takeData p tag payload = s.completeDescriptor p tag ops (b ++ payload) := by
  have job : s.job p tag = some (.tileDescriptor ops b) := job
  rw [State.takeData, job]
  exact if_neg (Nat.not_lt.2 whole)

theorem State.takeData_cells {s : State} {p : PortId} {tag : Tag} {k : Nat} {t : TileSlot}
    (job : (s.port p).tags.get tag = some (.tileCells k)) (found : s.clr.slot k = some t) (more : t.received < t.w * t.h * 3)
    (payload : List Byte) : s.takeData p tag payload = s.takeCells k payload := by
  have job : s.job p tag = some (.tileCells k) := job
  have more : t.received < t.cellBytes := more
  rw [State.takeData, job]
  simp only
  rw [State.cellFrame, found]
  exact if_pos more

theorem State.takeCells_eq {s : State} {k : Nat} {t : TileSlot} (found : s.clr.slot k = some t) {bytes cells : List Byte}
    (fit : cells = bytes.take (t.w * t.h * 3 - t.received)) : s.takeCells k bytes = { s with clr := { s.clr with
      slots := s.clr.slots.map (fun y => if y.slot = k then { y with received := y.received + cells.length } else y)
      loader := s.clr.loader ++ (if cells = [] then [] else [⟨k, cells⟩]) } } := by
  have empty (l : List Byte) : l.isEmpty = true ↔ l = [] := List.isEmpty_iff
  subst fit
  rw [State.takeCells, found]
  simp only [empty]
  rfl

theorem cellBytesArrive : Statement.CellBytesArrive := by
  intro dt k p tag payload cells t s e he up least most job found more fit
  have some_left : cells ≠ [] := by
    rw [fit, ← List.length_pos_iff, List.length_take]
    omega
  rw [exec_dataOut he up least most, State.takeData_cells job found more, State.takeCells_eq found fit, if_neg some_left]

/-! ### The descriptor (R123) -/

/-- The window is spelt by the first 12 bytes. -/
theorem descriptorOf_take (b : List Byte) : descriptorOf (b.take 12) = descriptorOf b := by
  have spelt (off : Nat) (within : off + 3 ≤ 12) : field (b.take 12) off 3 = field b off 3 := by
    rw [field, field, List.drop_take, List.take_take, Nat.min_eq_left (by omega)]
  simp only [descriptorOf, angleField, spelt 0 (by decide), spelt 3 (by decide), spelt 6 (by decide), spelt 9 (by decide)]

theorem descriptorOf_eq {b d : List Byte} (hd : d = b.take 12) : descriptorOf b =
    ⟨BitVec.ofNat 24 (leNat (d.take 3)), leNat ((d.drop 3).take 3), BitVec.ofNat 24 (leNat ((d.drop 6).take 3)),
      BitVec.ofNat 24 (leNat ((d.drop 9).take 3))⟩ := by
  rw [hd, ← descriptorOf_take]
  rfl

/-- The fields of the descriptor that R123 tests before the tables. -/
structure DescriptorFits (ops : TileOperands) (w : AngularWindow) : Prop where
  priority : ops.priority ≤ 3
  widthLeast : 1 ≤ w.azWidth
  widthMost : w.azWidth ≤ 8388608
  mirror : w.mLow.toNat < w.mHigh.toNat

theorem descriptorTests_pass {ops : TileOperands} {w : AngularWindow} (fits : DescriptorFits ops w) :
    firstFailure (descriptorTests ops w) = none := by
  simp [firstFailure, descriptorTests, inRange, maxTileWidth, fits.priority, fits.widthLeast, fits.widthMost, fits.mirror]

theorem descriptorTests_priority {ops : TileOperands} (bad : 3 < ops.priority) (w : AngularWindow) :
    firstFailure (descriptorTests ops w) = some 1 := by
  simp [firstFailure, descriptorTests, bad]

theorem descriptorTests_width {ops : TileOperands} {w : AngularWindow} (priority : ops.priority ≤ 3)
    (bad : w.azWidth = 0 ∨ 8388608 < w.azWidth) : firstFailure (descriptorTests ops w) = some 5 := by
  have out : inRange 1 maxTileWidth w.azWidth = false := by
    rw [inRange, Bool.and_eq_false_iff, decide_eq_false_iff_not, decide_eq_false_iff_not, maxTileWidth]
    omega
  simp [firstFailure, descriptorTests, priority, out]

theorem descriptorTests_mirror {ops : TileOperands} {w : AngularWindow} (priority : ops.priority ≤ 3)
    (least : 1 ≤ w.azWidth) (most : w.azWidth ≤ 8388608) (bad : w.mHigh.toNat ≤ w.mLow.toNat) :
    firstFailure (descriptorTests ops w) = some 7 := by
  simp [firstFailure, descriptorTests, inRange, maxTileWidth, priority, least, most, bad]

section CompleteDescriptor

variable {s : State} {p : PortId} {tag : Tag} {ops : TileOperands} {bytes : List Byte} {w : AngularWindow}

theorem State.completeDescriptor_arg (spelt : descriptorOf bytes = w) {n : Nat}
    (failed : firstFailure (descriptorTests ops w) = some n) :
    s.completeDescriptor p tag ops bytes = s.finishCheck p tag .arg 0 (some n) := by
  rw [State.completeDescriptor]
  simp only [spelt, failed]

theorem State.completeDescriptor_unplaced (spelt : descriptorOf bytes = w) (fits : DescriptorFits ops w) {t : State}
    (unplaced : s.placeTile p tag ops w = (t, none)) : s.completeDescriptor p tag ops bytes = t := by
  rw [State.completeDescriptor]
  simp only [spelt, descriptorTests_pass fits, unplaced]

theorem State.completeDescriptor_placed (spelt : descriptorOf bytes = w) (fits : DescriptorFits ops w) {t : State} {k : Nat}
    (placed : s.placeTile p tag ops w = (t, some k)) : s.completeDescriptor p tag ops bytes = t.takeCells k (bytes.drop 12) := by
  rw [State.completeDescriptor]
  simp only [spelt, descriptorTests_pass fits, placed]
  rfl

theorem State.placeTile_gone (unnamed : s.exs.exposure ops.exposure = none) :
    s.placeTile p tag ops w = (s.finishCheck p tag .gone 0 none, none) := by
  rw [State.placeTile, unnamed]

theorem State.placeTile_state {x : Exposure} (named : s.exs.exposure ops.exposure = some x) (other : x.state ≠ .exposed) :
    s.placeTile p tag ops w = (s.finishCheck p tag .state 0 none, none) := by
  rw [State.placeTile, named]
  exact if_neg other

theorem State.placeTile_full {x : Exposure} (named : s.exs.exposure ops.exposure = some x) (exposed : x.state = .exposed)
    (full : s.clr.freeSlot = none) : s.placeTile p tag ops w = (s.finishCheck p tag .full 0 none, none) := by
  rw [State.placeTile, named]
  simp only [exposed, full, if_true]

theorem State.placeTile_free {x : Exposure} (named : s.exs.exposure ops.exposure = some x) (exposed : x.state = .exposed)
    {k : Nat} (free : s.clr.freeSlot = some k) : s.placeTile p tag ops w = (s.acceptTile p tag ops w k, some k) := by
  rw [State.placeTile, named]
  simp only [exposed, free, if_true]

end CompleteDescriptor

theorem Clr.freeSlot_none {c : Clr} (full : ∀ k, k < 48 → c.slot k ≠ none) : c.freeSlot = none := by
  refine List.find?_eq_none.2 fun k mem => ?_
  rw [Option.isNone_iff_eq_none]
  exact full k (List.mem_range.1 mem)

theorem Clr.freeSlot_lowest {c : Clr} {k : Nat} (low : k < 48) (free : c.slot k = none)
    (taken : ∀ j, j < k → c.slot j ≠ none) : c.freeSlot = some k := by
  refine List.find?_range_eq_some.2 ⟨Option.isNone_iff_eq_none.2 free, List.mem_range.2 low, fun j lt => ?_⟩
  rw [Bool.not_eq_true', Bool.eq_false_iff, Ne, Option.isNone_iff_eq_none]
  exact taken j lt

/-- A final CHECK on a port whose link is UP (R170, R173). -/
theorem State.finishCheck_up {s : State} {p : PortId} (up : (s.port p).link = .up) (tag : Tag) (cls : SenseClass) (code : Nat)
    (info : Option Nat) : s.finishCheck p tag cls code info = s.withPort p { (s.port p).idleTag tag with
      sense := senseOf tag cls code info
      outgoing := ((s.port p).idleTag tag).outgoing ++ [checkFrame tag cls code] } := by
  rw [State.finishCheck, State.modPort_eq_withPort, Port.refuse, Port.hand_of_up (by exact up)]
  rfl

theorem tileDescriptorRefused : Statement.TileDescriptorRefused := by
  intro dt p tag ops b payload d w ends s e he up least most job whole hd hw hends
  have spelt : descriptorOf (b ++ payload) = w := (descriptorOf_eq hd).trans hw.symm
  have checked (cls : SenseClass) (info : Option Nat) : (e.finishCheck p tag cls 0 info).settle = ends cls info := by
    rw [State.finishCheck_up up, hends]
  rw [exec_dataOut he up least most, State.takeData_descriptor job whole]
  refine ⟨fun bad => ?_, fun priority bad => ?_, fun priority width_least width_most bad => ?_,
    fun priority width_least width_most mirror => ⟨fun unnamed => ?_, fun before after x log first named =>
      ⟨fun other => ?_, fun exposed full => ?_⟩⟩⟩
  · rw [State.completeDescriptor_arg spelt (descriptorTests_priority bad w), checked]
  · rw [State.completeDescriptor_arg spelt (descriptorTests_width priority bad), checked]
  · rw [State.completeDescriptor_arg spelt (descriptorTests_mirror priority width_least width_most bad), checked]
  · rw [State.completeDescriptor_unplaced spelt ⟨priority, width_least, width_most, mirror⟩
      (State.placeTile_gone (Exs.exposure_none unnamed)), checked]
  · have found : e.exs.exposure ops.exposure = some x := named ▸ Exs.exposure_split log first
    rw [State.completeDescriptor_unplaced spelt ⟨priority, width_least, width_most, mirror⟩
      (State.placeTile_state found other), checked]
  · have found : e.exs.exposure ops.exposure = some x := named ▸ Exs.exposure_split log first
    rw [State.completeDescriptor_unplaced spelt ⟨priority, width_least, width_most, mirror⟩
      (State.placeTile_full found exposed (Clr.freeSlot_none full)), checked]

/-! ### An accepted load (R123, R124) -/

section InsertSlot

variable {t : TileSlot} {ts : List TileSlot}

theorem find?_insertSlot (free : ∀ u ∈ ts, u.slot ≠ t.slot) :
    (insertSlot t ts).find? (fun u => decide (u.slot = t.slot)) = some t := by
  induction ts with
  | nil => simp [insertSlot]
  | cons u us ih =>
    unfold insertSlot
    split
    · simp
    · rw [List.find?_cons_of_neg (by simpa using free u List.mem_cons_self)]
      exact ih fun v mem => free v (List.mem_cons_of_mem _ mem)

/-- A change of the new slot alone. -/
theorem map_insertSlot (free : ∀ u ∈ ts, u.slot ≠ t.slot) {f : TileSlot → TileSlot} (number : (f t).slot = t.slot) :
    (insertSlot t ts).map (fun u => if u.slot = t.slot then f u else u) = insertSlot (f t) ts := by
  have others {us : List TileSlot} (free : ∀ u ∈ us, u.slot ≠ t.slot) :
      us.map (fun u => if u.slot = t.slot then f u else u) = us :=
    (List.map_congr_left fun u mem => if_neg (free u mem)).trans (List.map_id' us)
  induction ts with
  | nil => simp [insertSlot]
  | cons u us ih =>
    have stays : u.slot ≠ t.slot := free u List.mem_cons_self
    unfold insertSlot
    rw [number]
    split
    · rw [List.map_cons, if_pos rfl, others free]
    · rw [List.map_cons, if_neg stays, ih fun v mem => free v (List.mem_cons_of_mem _ mem)]

end InsertSlot

theorem Clr.free_number {c : Clr} {k : Nat} (free : c.slot k = none) : ∀ u ∈ c.slots, u.slot ≠ k := fun u mem =>
  of_decide_eq_false (Bool.eq_false_iff.2 (List.find?_eq_none.1 free u mem))

/-- An accepted load: its slot is LOADING with the cells that came behind the descriptor, its exposure is LOADING. -/
theorem State.acceptTile_takeCells {s : State} {p : PortId} {k : Nat} (up : (s.port p).link = .up)
    (free : s.clr.slot k = none) (tag : Tag) (ops : TileOperands) (w : AngularWindow) {bytes cells : List Byte}
    (fit : cells = bytes.take (ops.w * ops.h * 3)) :
    (s.acceptTile p tag ops w k).takeCells k bytes = { s.withPort p { s.port p with
        tags := (s.port p).tags.set tag (some (.tileCells k))
        outgoing := (s.port p).outgoing ++ [acceptedFrame tag] } with
      clr := { s.clr with
        slots := insertSlot
          ⟨k, .loading, ops.exposure, w, ops.w, ops.h, ops.priority, 0, some ⟨p, tag⟩, cells.length, 0⟩ s.clr.slots
        loader := s.clr.loader ++ (if cells = [] then [] else [⟨k, cells⟩]) }
      exs := s.exs.mapLog ops.exposure (fun e => e.load k s.tb) } := by
  have numbers : ∀ u ∈ s.clr.slots, u.slot ≠ (loadingSlot k ops w ⟨p, tag⟩).slot := Clr.free_number free
  have accepted : s.acceptTile p tag ops w k = { s.withPort p { s.port p with
        tags := (s.port p).tags.set tag (some (.tileCells k))
        outgoing := (s.port p).outgoing ++ [acceptedFrame tag] } with
      clr := { s.clr with slots := insertSlot (loadingSlot k ops w ⟨p, tag⟩) s.clr.slots }
      exs := s.exs.mapLog ops.exposure (fun e => e.load k s.tb) } := by
    have held : (s.hold p tag (.tileCells k)).accept p tag = s.withPort p { s.port p with
        tags := (s.port p).tags.set tag (some (.tileCells k))
        outgoing := (s.port p).outgoing ++ [acceptedFrame tag] } := by
      rw [State.accept, State.hold, State.modPort_eq_withPort s, State.modPort_withPort, Port.hand_of_up (by exact up)]
      rfl
    rw [← held]
    rfl
  have found : (s.acceptTile p tag ops w k).clr.slot k = some (loadingSlot k ops w ⟨p, tag⟩) := by
    rw [accepted]
    exact find?_insertSlot numbers
  have filled : (insertSlot (loadingSlot k ops w ⟨p, tag⟩) s.clr.slots).map
        (fun y => if y.slot = k then { y with received := y.received + cells.length } else y) = insertSlot
      ⟨k, .loading, ops.exposure, w, ops.w, ops.h, ops.priority, 0, some ⟨p, tag⟩, cells.length, 0⟩ s.clr.slots := by
    have changed := map_insertSlot numbers (f := fun y => { y with received := y.received + cells.length }) rfl
    simp only [loadingSlot, Nat.zero_add] at changed
    exact changed
  rw [State.takeCells_eq found (cells := cells) fit, accepted]
  simp only
  rw [filled]

theorem tileAccepted : Statement.TileAccepted := by
  intro dt p tag ops b payload d cells w x r before after k s e he up least most job whole hd hcells hw priority width_least
    width_most mirror log first last named exposed deadline low free taken
  have spelt : descriptorOf (b ++ payload) = w := (descriptorOf_eq hd).trans hw.symm
  have found : e.exs.exposure ops.exposure = some x := named ▸ Exs.exposure_split log first
  have placed := State.placeTile_free (p := p) (tag := tag) (w := w) found exposed (Clr.freeSlot_lowest low free taken)
  have loaded : x.load k e.tb = { x with
      state := .loading
      slot := some k
      held := some (r.length - (e.tb - r.start).toNat)
      deadline := none } := by
    rw [Exposure.load, deadline]
    rfl
  rw [exec_dataOut he up least most, State.takeData_descriptor job whole,
    State.completeDescriptor_placed spelt ⟨priority, width_least, width_most, mirror⟩ placed,
    State.acceptTile_takeCells up free tag ops w hcells, ← named, Exs.mapLog_split log first last, loaded]

/-- Settles O40: the command block, the descriptor that is accepted or refused, and the cells. -/
theorem tileLoadTaken : Obligations.TileLoadTaken := ⟨tileLoadBegins, tileAccepted, tileDescriptorRefused, cellBytesArrive⟩

end Sys2Proof.Machine

namespace Sys2Proof.Machine

/-! ### What a slot's place in a sector list depends on (R129, R130) -/

/-- The number a sector list holds of a slot, and what ranks it. -/
def TileSlot.rankKey (t : TileSlot) : Nat × Nat × Nat := (t.slot, t.priority, t.exposure)

theorem TileSlot.rankKey_eq {t u : TileSlot} (slot : u.slot = t.slot) (priority : u.priority = t.priority)
    (exposure : u.exposure = t.exposure) : u.rankKey = t.rankKey := by
  rw [TileSlot.rankKey, slot, priority, exposure]
  rfl

theorem TileSlot.above_congr {t t' u u' : TileSlot} (ht : t'.rankKey = t.rankKey) (hu : u'.rankKey = u.rankKey) :
    t'.above u' = t.above u := by
  simp only [TileSlot.rankKey, Prod.mk.injEq] at ht hu
  simp only [TileSlot.above, ht, hu]

theorem map_slot_congr {ts us : List TileSlot} (keys : us.map TileSlot.rankKey = ts.map TileSlot.rankKey) :
    us.map TileSlot.slot = ts.map TileSlot.slot := by
  have numbers := congrArg (List.map Prod.fst) keys
  rwa [List.map_map, List.map_map] at numbers

theorem insertRanked_congr {t t' : TileSlot} (ht : t'.rankKey = t.rankKey) {ts us : List TileSlot}
    (keys : us.map TileSlot.rankKey = ts.map TileSlot.rankKey) :
    (insertRanked t' us).map TileSlot.rankKey = (insertRanked t ts).map TileSlot.rankKey := by
  induction ts generalizing us with
  | nil =>
    obtain rfl := List.map_eq_nil_iff.1 keys
    simp only [insertRanked, List.map_cons, List.map_nil, ht]
  | cons v vs ih =>
    obtain ⟨u, us, rfl, hu, rest⟩ := List.map_eq_cons_iff.1 keys
    simp only [insertRanked, TileSlot.above_congr ht hu]
    split
    · simp only [List.map_cons, ht, hu, rest]
    · simp only [List.map_cons, hu, ih rest]

section InsertCongr

variable {c d : Clr} {t u : TileSlot}

theorem Clr.listed_congr (slots : ∀ k, (d.slot k).map TileSlot.rankKey = (c.slot k).map TileSlot.rankKey)
    (sector : List Nat) : (d.listed sector).map TileSlot.rankKey = (c.listed sector).map TileSlot.rankKey := by
  rw [Clr.listed, Clr.listed, List.map_filterMap, List.map_filterMap]
  exact List.filterMap_congr fun k _ => slots k

theorem insertInSector_congr (slots : ∀ k, (d.slot k).map TileSlot.rankKey = (c.slot k).map TileSlot.rankKey)
    (same : u.rankKey = t.rankKey) (sector : List Nat) : insertInSector d u sector = insertInSector c t sector := by
  have keys := Clr.listed_congr slots sector
  have length : (d.listed sector).length = (c.listed sector).length := by
    rw [← List.length_map (f := TileSlot.rankKey), keys, List.length_map]
  by_cases room : (c.listed sector).length < 8
  · rw [insertInSector_room room, insertInSector_room (length ▸ room), map_slot_congr (insertRanked_congr same keys)]
  · have full := Nat.not_lt.1 room
    have filled (l : List TileSlot) (long : 8 ≤ l.length) : l ≠ [] := fun empty => by
      rw [empty] at long
      exact absurd long (by decide)
    have split := (List.dropLast_append_getLast (filled _ full)).symm
    have split' := (List.dropLast_append_getLast (filled _ (length ▸ full : 8 ≤ (d.listed sector).length))).symm
    rw [split, split', List.map_append, List.map_append] at keys
    obtain ⟨others, last⟩ := List.append_inj' keys rfl
    rw [insertInSector_full full split, insertInSector_full (length ▸ full) split',
      TileSlot.above_congr same (List.cons.inj last).1, map_slot_congr (insertRanked_congr same others)]

/-- Two tables whose slots rank alike take a slot alike. -/
theorem Clr.insertInIndex_congr (sectors : d.sectors = c.sectors) (counters : d.counters = c.counters)
    (slots : ∀ k, (d.slot k).map TileSlot.rankKey = (c.slot k).map TileSlot.rankKey) (same : u.rankKey = t.rankKey)
    (window : u.window = t.window) : (d.insertInIndex u).sectors = (c.insertInIndex t).sectors ∧
      (d.insertInIndex u).counters = (c.insertInIndex t).counters := by
  have inserted (k : Nat) : d.insertedIn u k = c.insertedIn t k := by
    rw [Clr.insertedIn, Clr.insertedIn, sectors, window, insertInSector_congr slots same]
  rw [Clr.insertInIndex_eq, Clr.insertInIndex_eq]
  simp only [inserted, sectors, counters, and_self]

end InsertCongr

/-- A change of one slot's fields, seen through the table. -/
theorem Clr.slot_mapSlot (c : Clr) (k : Nat) {f : TileSlot → TileSlot} (number : ∀ t, (f t).slot = t.slot) (j : Nat) :
    (c.mapSlot k f).slot j = (c.slot j).map (fun t => if t.slot = k then f t else t) := by
  have keeps (t : TileSlot) : (if t.slot = k then f t else t).slot = t.slot := by
    split
    · exact number t
    · rfl
  rw [Clr.slot, Clr.mapSlot, List.find?_map]
  refine congrArg (Option.map _) (congrArg (fun p => List.find? p c.slots) (funext fun t => ?_))
  simp only [Function.comp_apply, keeps]

theorem Clr.slot_mapSlot_same {c : Clr} {k : Nat} {t : TileSlot} (found : c.slot k = some t) {f : TileSlot → TileSlot}
    (number : ∀ t, (f t).slot = t.slot) : (c.mapSlot k f).slot k = some (f t) := by
  rw [Clr.slot_mapSlot c k number, found, Option.map_some, if_pos (Clr.slot_number found)]

theorem Clr.rankKeys_mapSlot (c : Clr) (k : Nat) {f : TileSlot → TileSlot} (same : ∀ t, (f t).rankKey = t.rankKey) (j : Nat) :
    ((c.mapSlot k f).slot j).map TileSlot.rankKey = (c.slot j).map TileSlot.rankKey := by
  rw [Clr.slot_mapSlot c k fun t => congrArg Prod.fst (same t), Option.map_map]
  refine congrArg (fun g => Option.map g (c.slot j)) (funext fun t => ?_)
  simp only [Function.comp_apply]
  split
  · exact same t
  · rfl

/-! ### The last transfer of a TILE LOAD (R124) -/

/-- The slot with `n` more bytes of its tile written. -/
def TileSlot.wrote (t : TileSlot) (n : Nat) : TileSlot := { t with written := t.written + n }

/-- The slot's last bytes are in the tile area, and its load is not complete yet. -/
def State.cellsWritten (s : State) (k : Nat) (chunk : LoadChunk) (rest : List LoadChunk) (t : TileSlot) : State :=
  { s with clr := { s.clr.mapSlot k (fun t => t.wrote chunk.bytes.length) with
    tileArea := Memory.writeList s.clr.tileArea (k * 196608 + t.written) chunk.bytes
    loader := rest } }

theorem State.endLoaderTransfer_last {s : State} {k : Nat} {chunk : LoadChunk} {rest : List LoadChunk} {t : TileSlot}
    (loader : s.clr.loader = chunk :: rest) (found : s.clr.slot k = some t) (least : 1 ≤ chunk.bytes.length)
    (most : chunk.bytes.length ≤ 1024) (last : t.written + chunk.bytes.length = t.w * t.h * 3) :
    s.endLoaderTransfer k chunk.bytes.length = (s.cellsWritten k chunk rest t).completeLoad k := by
  have all : max 1 (min (min chunk.bytes.length transferSize) chunk.bytes.length) = chunk.bytes.length := by
    rw [transferSize]
    omega
  rw [State.endLoaderTransfer]
  simp only [loader, found, all, List.drop_length, List.take_length, List.isEmpty_nil, if_true]
  exact if_pos last

/-- CLR once the load of slot `k`, which was `t`, is complete. -/
def Clr.loadCompleted (c : Clr) (k : Nat) (t : TileSlot) : Clr :=
  ((c.mapSlot k (fun t => { t with state := .valid, owner := none })).insertInIndex
    { t with state := .valid, owner := none }).queueBackfill t.exposure

/-- The log once exposure `id` is TILED. -/
def Exs.tiled (x : Exs) (id : Nat) : Exs :=
  { x with log := x.log.map (fun e => if e.id = id then { e with state := .tiled, deadline := none, held := none } else e) }

theorem State.completeLoad_owned {s : State} {k : Nat} {t : TileSlot} {o : PortTag} (found : s.clr.slot k = some t)
    (owner : t.owner = some o) : s.completeLoad k =
      ({ s with clr := s.clr.loadCompleted k t, exs := s.exs.tiled t.exposure } : State).finish o.port o.tag .done := by
  rw [State.completeLoad, found]
  simp only [owner]
  rfl

theorem exec_tileLoadComplete {dt k : Nat} {chunk : LoadChunk} {rest : List LoadChunk} {t : TileSlot} {s e : State}
    (he : e = s.elapse dt) (progress : e.rng.inProgress = some ⟨.tileLoader k, true⟩) (loader : e.clr.loader = chunk :: rest)
    (found : e.clr.slot k = some t) (most : chunk.bytes.length ≤ 1024)
    (last : t.written + chunk.bytes.length = t.w * t.h * 3) :
    exec (.tileLoadComplete dt) s = .next (e.dramFreed.endLoaderTransfer k chunk.bytes.length).settle := by
  have cells : e.lastCells = some chunk.bytes.length := by
    rw [State.lastCells, progress, loader]
    simp only [found]
    exact if_pos ⟨most, last⟩
  have taken : exec (.tileLoadComplete dt) s = .next e.tileLoadComplete := he ▸ rfl
  rw [taken, State.tileLoadComplete, cells]
  exact congrArg Host.Outcome.next (State.endTransfer_wanted progress _)

theorem Clr.queueBackfill_rest (c : Clr) (n : Nat) : (c.queueBackfill n).slots = c.slots ∧
    (c.queueBackfill n).sectors = c.sectors ∧ (c.queueBackfill n).loader = c.loader ∧
    (c.queueBackfill n).counters.sectorExclusions = c.counters.sectorExclusions := by
  unfold Clr.queueBackfill
  split <;> exact ⟨rfl, rfl, rfl, rfl⟩

section LoadCompleted

variable {c : Clr} {k : Nat} {t : TileSlot}

theorem Clr.slot_loadCompleted (found : c.slot k = some t) :
    (c.loadCompleted k t).slot k = some { t with state := .valid, owner := none } := by
  have slots : (c.loadCompleted k t).slots = (c.mapSlot k (fun t => { t with state := .valid, owner := none })).slots := by
    rw [Clr.loadCompleted, (Clr.queueBackfill_rest _ _).1]
    rfl
  rw [Clr.slot, slots]
  exact Clr.slot_mapSlot_same found (f := fun t => { t with state := .valid, owner := none }) fun _ => rfl

theorem Clr.sectors_loadCompleted (c : Clr) (k : Nat) (t : TileSlot) :
    (c.loadCompleted k t).sectors = (c.insertInIndex t).sectors ∧
    (c.loadCompleted k t).counters.sectorExclusions = (c.insertInIndex t).counters.sectorExclusions := by
  obtain ⟨sectors, counters⟩ := Clr.insertInIndex_congr (c := c) (t := t) (u := { t with state := .valid, owner := none })
    (d := c.mapSlot k (fun t => { t with state := .valid, owner := none })) rfl rfl (c.rankKeys_mapSlot k fun _ => rfl) rfl rfl
  obtain ⟨-, sameSectors, -, exclusions⟩ := Clr.queueBackfill_rest
    ((c.mapSlot k (fun t => { t with state := .valid, owner := none })).insertInIndex
      { t with state := .valid, owner := none }) t.exposure
  exact ⟨sameSectors.trans sectors, exclusions.trans (congrArg ClrCounters.sectorExclusions counters)⟩

theorem Clr.queue_loadCompleted (c : Clr) (k : Nat) (t : TileSlot) :
    (c.backfillQueue.length < 64 → (c.loadCompleted k t).backfillQueue = c.backfillQueue ++ [t.exposure] ∧
      (c.loadCompleted k t).sweepMark = c.sweepMark) ∧
    (64 ≤ c.backfillQueue.length → (c.loadCompleted k t).backfillQueue = c.backfillQueue ∧
      (c.loadCompleted k t).sweepMark = true ∧
      (c.loadCompleted k t).counters.backfillOverflows = bump c.counters.backfillOverflows 1) := by
  rw [Clr.loadCompleted, Clr.queueBackfill_eq]
  refine ⟨fun room => ?_, fun full => ?_⟩
  · rw [if_pos (by exact room)]
    exact ⟨rfl, rfl⟩
  · rw [if_neg (by exact Nat.not_lt.2 full)]
    exact ⟨rfl, rfl, rfl⟩

theorem Clr.loadCompleted_rest (c : Clr) (k : Nat) (t : TileSlot) :
    (c.loadCompleted k t).loader = c.loader ∧ (c.loadCompleted k t).tileArea = c.tileArea :=
  ⟨(Clr.queueBackfill_rest _ _).2.2.1, Clr.queueBackfill_tileArea _ _⟩

end LoadCompleted

theorem Exs.mem_tiled {x : Exs} {id : Nat} {e : Exposure} (mem : e ∈ (x.tiled id).log) (named : e.id = id) :
    e.state = .tiled ∧ e.deadline = none := by
  obtain ⟨y, -, rfl⟩ := List.mem_map.1 mem
  split
  · exact ⟨rfl, rfl⟩
  · rename_i other
    rw [if_neg other] at named
    exact absurd named other

/-- A final DONE on its port (R170, R172). -/
theorem State.finish_port (s : State) (p : PortId) (tag : Tag) (st : Status) :
    ((s.finish p tag st).port p).tags.get tag = none ∧
    ((s.port p).link = .up → replyFrame tag st ∈ ((s.finish p tag st).port p).outgoing) := by
  have here : (s.finish p tag st).port p = ((s.port p).idleTag tag).answer tag st :=
    s.port_modPort_same p (fun q => (q.idleTag tag).answer tag st)
  rw [here, Port.answer]
  refine ⟨?_, fun up => ?_⟩
  · rw [Port.hand_tags]
    exact Quad.get_set_same _ _ _
  · rw [Port.hand_of_up (by exact up)]
    exact List.mem_append_right _ (List.mem_singleton.2 rfl)

/-- Settles O41: the last bytes go to the tile area (`State.endLoaderTransfer_last`), then the load is complete
(`State.completeLoad_owned`); the slot ranks as it did, so the sectors take it alike (`Clr.insertInIndex_congr`). -/
theorem tileLoadCompletes : Obligations.TileLoadCompletes := by
  intro dt k chunk rest t o s e he progress loader found wf least most last owner
  have written : (e.dramFreed.cellsWritten k chunk rest t).clr.slot k =
      some (t.wrote chunk.bytes.length) :=
    Clr.slot_mapSlot_same (c := e.clr) found (f := fun t => t.wrote chunk.bytes.length) fun _ => rfl
  have ends := (State.endLoaderTransfer_last (s := e.dramFreed) loader found least most last).trans
    (State.completeLoad_owned written owner)
  obtain ⟨idle, done⟩ := State.finish_port { e.dramFreed.cellsWritten k chunk rest t with
    clr := (e.dramFreed.cellsWritten k chunk rest t).clr.loadCompleted k (t.wrote chunk.bytes.length)
    exs := e.exs.tiled t.exposure } o.port o.tag .done
  obtain ⟨sectors, exclusions⟩ := Clr.sectors_loadCompleted (e.dramFreed.cellsWritten k chunk rest t).clr k
    (t.wrote chunk.bytes.length)
  obtain ⟨indexed, counted⟩ := Clr.insertInIndex_congr (c := e.clr) (t := t)
    (d := (e.dramFreed.cellsWritten k chunk rest t).clr) (u := t.wrote chunk.bytes.length) rfl rfl
    (e.clr.rankKeys_mapSlot k fun _ => rfl) rfl rfl
  obtain ⟨room, full⟩ := Clr.queue_loadCompleted (e.dramFreed.cellsWritten k chunk rest t).clr k
    (t.wrote chunk.bytes.length)
  obtain ⟨left, area⟩ := Clr.loadCompleted_rest (e.dramFreed.cellsWritten k chunk rest t).clr k
    (t.wrote chunk.bytes.length)
  refine ⟨_, exec_tileLoadComplete he progress loader found most last, ?_⟩
  rw [ends]
  refine ⟨⟨_, Clr.slot_loadCompleted written, rfl, rfl, rfl, rfl, rfl⟩, fun i inside => ?_, fun a outside => ?_,
    sectors.trans indexed, exclusions.trans (congrArg ClrCounters.sectorExclusions counted),
    fun x mem named => Exs.mem_tiled mem named, room, full, left, idle, done, rfl, rfl, rfl, rfl, rfl⟩
  · rw [State.finish_clr, area, List.getD_eq_getElem _ _ inside]
    exact Memory.read_writeList_inside _ _ _ i wf inside
  · rw [State.finish_clr, area]
    exact Memory.read_writeList_outside _ _ _ _ outside

end Sys2Proof.Machine

namespace Sys2Proof.Machine

/-! ### The free engine chooses, round by round (R136, R139, R141) -/

theorem Work.over_iff (w : Work) : w.over = true ↔
    w.endLine = none ∨ ∃ n m, w.endLine = some n ∧ w.position = some m ∧ n ≤ m := by
  unfold Work.over
  cases w.endLine with
  | none => simp
  | some n => cases w.position with
    | none => simp
    | some m => simp

/-- Work goes on below its end line. -/
theorem Work.over_eq_false {w : Work} {last : Nat} (endLine : w.endLine = some last)
    (below : ∀ q, w.position = some q → q < last) : w.over = false := by
  rw [Bool.eq_false_iff, Ne, Work.over_iff, endLine]
  rintro (none | ⟨n, m, ⟨⟩, position, reached⟩)
  · cases none
  · exact absurd (below m position) (Nat.not_lt.2 reached)

/-- The next line of work with end line `last`. -/
theorem Work.next_eq {w : Work} {last : Nat} (endLine : w.endLine = some last) (lines : List Nat) : w.next lines =
    lines.find? (fun n => ((w.position.map (fun p => decide (p < n))).getD true) && decide (n ≤ last)) := by
  rw [Work.next, endLine]

theorem Work.ahead_iff (w : Work) (last n : Nat) :
    (((w.position.map (fun p => decide (p < n))).getD true) && decide (n ≤ last)) = true ↔
      n ≤ last ∧ ∀ q, w.position = some q → q < n := by
  rw [Bool.and_eq_true, decide_eq_true_iff, and_comm]
  refine and_congr_right fun _ => ?_
  cases w.position with
  | none => simp
  | some q => simp

section Chooses

variable {c d : Clr} {w : Work}

theorem Clr.endWork_none (idle : c.work = none) : c.endWork = c := by
  rw [Clr.endWork, idle]

theorem Clr.endWork_over (work : c.work = some w) (ended : w.over = true) : c.endWork = { c with work := none } := by
  rw [Clr.endWork, work]
  exact if_pos ended

theorem Clr.endWork_goesOn (work : c.work = some w) (more : w.over = false) : c.endWork = c := by
  rw [Clr.endWork, work]
  exact if_neg (ne_true_of_eq_false more)

theorem Clr.choose_busy {x : Pass} (running : c.pass = some x) : c.choose = c := by
  rw [Clr.choose, running]

/-- Where no work is over, the choice is one round and what it leads to. -/
theorem Clr.choose_round (idle : c.pass = none) (same : c.endWork = c) :
    c.choose = c.chooseIn (2 * c.backfillQueue.length + 4 + 1) := by
  rw [Clr.choose, idle, same]

theorem Clr.chooseIn_queue {n line : Nat} {rest : List Nat} (queue : c.colourQueue = line :: rest) :
    c.chooseIn (n + 1) = { c with pass := some ⟨line, .firstPass, 0, 0⟩ } := by
  rw [Clr.chooseIn, queue]

theorem Clr.chooseIn_step {n line : Nat} (queue : c.colourQueue = []) (work : c.work = some w)
    (next : w.next c.pendingList = some line) : c.chooseIn (n + 1) =
      { c with work := some { w with position := some line }, pass := some ⟨line, w.kind.pass, 0, 0⟩ } := by
  rw [Clr.chooseIn, queue, work]
  simp only [next]

theorem Clr.chooseIn_done {n : Nat} (queue : c.colourQueue = []) (work : c.work = some w)
    (next : w.next c.pendingList = none) : c.chooseIn (n + 1) = ({ c with work := none } : Clr).chooseIn n := by
  rw [Clr.chooseIn, queue, work]
  simp only [next]

theorem Clr.chooseIn_takesUp {n : Nat} (queue : c.colourQueue = []) (idle : c.work = none) (taken : c.takeUp = some d) :
    c.chooseIn (n + 1) = d.endWork.chooseIn n := by
  rw [Clr.chooseIn, queue, idle]
  simp only [taken]

theorem Clr.chooseIn_nothing {n : Nat} (queue : c.colourQueue = []) (idle : c.work = none) (nothing : c.takeUp = none) :
    c.chooseIn (n + 1) = c := by
  rw [Clr.chooseIn, queue, idle]
  simp only [nothing]

theorem Clr.takeUp_sweep (sweep : c.sweepMark = true) : c.takeUp = some { c with
    work := some ⟨.sweep, c.pendingList.getLast?, none⟩, sweepMark := false, backfillQueue := [] } := if_pos sweep

theorem Clr.takeUp_task {id : Nat} {rest : List Nat} (noSweep : c.sweepMark = false) (queue : c.backfillQueue = id :: rest) :
    c.takeUp = some { c with work := some ⟨.task id, c.pendingList.getLast?, none⟩, backfillQueue := rest } := by
  rw [Clr.takeUp, noSweep, queue]
  rfl

theorem Clr.takeUp_nothing (noSweep : c.sweepMark = false) (queue : c.backfillQueue = []) : c.takeUp = none := by
  rw [Clr.takeUp, noSweep, queue]
  rfl

/-- Work taken up leaves the engine to choose again. -/
theorem Clr.choose_takesUp (idle : c.pass = none) (queue : c.colourQueue = []) (free : c.work = none)
    (taken : c.takeUp = some d) : c.choose = d.choose := by
  have fewer : d.rounds < c.rounds := Clr.rounds_takeUp free taken
  have bound := Clr.rounds_endWork_bound c
  rw [Clr.endWork_none free] at bound
  have enough : d.endWork.rounds ≤ 2 * c.backfillQueue.length + 4 := by
    have ended := Clr.rounds_endWork_le d
    omega
  rw [Clr.choose_round idle (Clr.endWork_none free), Clr.chooseIn_takesUp queue free taken,
    Clr.choose_eq d ((Clr.takeUp_pass taken).trans idle) enough]

/-- Work with no line left ends, and the engine chooses again. -/
theorem Clr.choose_done (idle : c.pass = none) (queue : c.colourQueue = []) (work : c.work = some w) (more : w.over = false)
    (next : w.next c.pendingList = none) : c.choose = ({ c with work := none } : Clr).choose := by
  have free : ({ c with work := none } : Clr).endWork = { c with work := none } := Clr.endWork_none rfl
  have enough : ({ c with work := none } : Clr).endWork.rounds ≤ 2 * c.backfillQueue.length + 4 := by
    have sweep : (if c.sweepMark then 2 else 0) ≤ 2 := by split <;> decide
    rw [free, Clr.rounds]
    simp only [Option.isSome_none, Bool.false_eq_true, if_false]
    omega
  rw [Clr.choose_round idle (Clr.endWork_goesOn work more), Clr.chooseIn_done queue work next, ← free,
    ← Clr.choose_eq ({ c with work := none } : Clr) idle enough, free]

end Chooses

theorem engineChooses : Statement.EngineChooses := by
  intro c
  refine ⟨fun x running => Clr.choose_busy running, fun idle => ⟨fun w work ended => ?_, fun n rest more queue => ?_,
    fun w last ahead queue work endLine below hahead => ⟨fun before n after lines passed here => ?_, fun passed => ?_⟩,
    fun queue free sweep => Clr.choose_takesUp idle queue free (Clr.takeUp_sweep sweep),
    fun id rest queue free noSweep tasks => Clr.choose_takesUp idle queue free (Clr.takeUp_task noSweep tasks),
    fun queue free noSweep tasks => ?_⟩⟩
  · rw [Clr.choose, idle, Clr.endWork_over work ((Work.over_iff w).2 ended), Clr.choose, idle, Clr.endWork_none rfl]
  · have same : c.endWork = c := by
      cases work : c.work with
      | none => exact Clr.endWork_none work
      | some w =>
        obtain ⟨last, endLine, below⟩ := more w work
        exact Clr.endWork_goesOn work (Work.over_eq_false endLine below)
    rw [Clr.choose_round idle same, Clr.chooseIn_queue queue]
  · have next : w.next c.pendingList = some n := by
      rw [Work.next_eq endLine, lines]
      refine List.find?_eq_some_iff_append.2 ⟨(w.ahead_iff last n).2 ((hahead n).1 here), before, after, rfl,
        fun m mem => ?_⟩
      rw [Bool.not_eq_true', Bool.eq_false_iff, Ne, w.ahead_iff, ← hahead]
      exact passed m mem
    rw [Clr.choose_round idle (Clr.endWork_goesOn work (Work.over_eq_false endLine below)),
      Clr.chooseIn_step queue work next]
    cases w.kind <;> rfl
  · have next : w.next c.pendingList = none := by
      rw [Work.next_eq endLine]
      refine List.find?_eq_none.2 fun m mem => ?_
      rw [w.ahead_iff, ← hahead]
      exact passed m mem
    exact Clr.choose_done idle queue work (Work.over_eq_false endLine below) next
  · rw [Clr.choose_round idle (Clr.endWork_none free), Clr.chooseIn_nothing queue free (Clr.takeUp_nothing noSweep tasks)]

/-! ### How a pass deals with its next record (R137, R142, R143) -/

theorem PassKind.evaluates_iff (k : PassKind) (p : Point) : k.evaluates p = true ↔
    k = .firstPass ∨ (p.colourState = .pending ∧ ∀ id, k = .task id → p.colourTag = BitVec.ofNat 8 id) := by
  cases k with
  | firstPass => simp [PassKind.evaluates]
  | task e =>
    simp only [PassKind.evaluates, colourTagOf, Bool.and_eq_true, decide_eq_true_iff, reduceCtorEq, false_or,
      PassKind.task.injEq, forall_eq']
    exact and_congr_right fun _ => decide_eq_true_iff
  | sweep => simp [PassKind.evaluates]

theorem PassKind.counts_eq (k : PassKind) (p : Point) :
    k.counts p = if decide (p.colourState = .pending) = decide (k = .firstPass) then 1 else 0 := by
  cases k with
  | firstPass => simp [PassKind.counts]
  | task e => by_cases pending : p.colourState = .pending <;> simp [PassKind.counts, pending]
  | sweep => by_cases pending : p.colourState = .pending <;> simp [PassKind.counts, pending]

theorem Clr.pin_eq (c : Clr) (cell : Option Nat) : c.pin cell =
    { c with slots := c.slots.map (fun t => if cell = some t.slot then { t with pins := 1 } else t) } := by
  cases cell with
  | none => simp [Clr.pin]
  | some k =>
    simp only [Clr.pin, Clr.mapSlot, Option.some.injEq, eq_comm (a := k)]

/-- The line a pass runs on is the one it finds by its number. -/
theorem State.passLine_over {s : State} {x : Pass} {l : RingLine} (runs : s.passesOver x l) : s.passLine x = some l := by
  obtain ⟨number, first, step⟩ := runs
  by_cases kind : x.kind = .firstPass
  · obtain ⟨before, st, after, closed, passed⟩ := first kind
    have found : s.rng.closed.find? (fun l => decide (l.line.number = x.line)) = some ⟨l, st⟩ := by
      refine List.find?_eq_some_iff_append.2 ⟨decide_eq_true number, before, after, closed, fun y mem => ?_⟩
      have other : ¬ y.line.number = x.line := passed y mem
      rw [decide_eq_false other]
      rfl
    rw [State.passLine, kind]
    simp only [found, Option.map_some]
  · obtain ⟨before, after, committed, passed⟩ := step kind
    rw [State.passLine_step kind, Rng.lookup]
    refine List.find?_eq_some_iff_append.2 ⟨decide_eq_true number, before, after, committed, fun y mem => ?_⟩
    have other : ¬ y.number = x.line := passed y mem
    rw [decide_eq_false other]
    rfl

section ColourNext

variable {s : State} {x : Pass} {l : RingLine} {p : Point}

theorem State.colourNext_passes (running : s.clr.pass = some x) (line : s.passLine x = some l)
    (next : l.points[x.done]? = some p) (passed : x.kind.evaluates p = false) :
    s.colourNext = { s with clr := { s.clr with pass := some { x with done := x.done + 1 } } } := by
  rw [State.colourNext, running]
  simp only [line, Option.bind_some, next, passed]
  rfl

theorem State.colourNext_evaluates (running : s.clr.pass = some x) (line : s.passLine x = some l)
    (next : l.points[x.done]? = some p) (evaluated : x.kind.evaluates p = true) {p' : Point} {cell : Option Nat}
    (result : evaluate s.scn.params s.clr s.exs p = (p', cell)) : s.colourNext = { s with
      rng := s.rng.mapPassLine x (RingLine.recolour x.done p')
      clr := { s.clr.pin cell with
        pass := some { x with done := x.done + 1, tally := x.tally + x.kind.counts p' } } } := by
  rw [State.colourNext, running]
  simp only [line, Option.bind_some, next, evaluated, result]
  rfl

end ColourNext

theorem pointDealtWith : Statement.PointDealtWith := by
  refine ⟨fun _ => rfl, fun _ _ => rfl, fun s x l p p' cell wanted write c running runs next hwanted result hwrite hc => ?_⟩
  have line := State.passLine_over runs
  have evaluated : x.kind.evaluates p = true ↔ wanted := (x.kind.evaluates_iff p).trans hwanted.symm
  have written : write = RingLine.recolour x.done p' := funext hwrite
  have pinned : c = { s.clr.pin cell with
      pass := some { x with done := x.done + 1, tally := x.tally + x.kind.counts p' } } := by
    rw [hc, Clr.pin_eq, PassKind.counts_eq]
  refine ⟨fun unwanted => ?_, fun want first => ?_, fun want step => ?_⟩
  · exact State.colourNext_passes running line next (Bool.eq_false_iff.2 (mt evaluated.1 unwanted))
  · rw [State.colourNext_evaluates running line next (evaluated.2 want) result, Rng.mapPassLine_first _ first, pinned, written]
    rfl
  · rw [State.colourNext_evaluates running line next (evaluated.2 want) result, Rng.mapPassLine_step _ step, pinned, written]
    rfl

/-! ### A transfer that does not end its pass (R94, R137, R142) -/

theorem State.recordTraffic_passed {s : State} {x : Pass} {p : Point} (passed : x.kind.evaluates p = false) :
    s.recordTraffic x p = p.size := by
  rw [State.recordTraffic, passed]
  rfl

theorem State.recordTraffic_evaluated {s : State} {x : Pass} {p : Point} (evaluated : x.kind.evaluates p = true)
    {q : Point} {cell : Option Nat} (result : evaluate s.scn.params s.clr s.exs p = (q, cell)) :
    s.recordTraffic x p = match cell with
      | none => p.size + p.size
      | some _ => p.size + 3 + p.size := by
  rw [State.recordTraffic, evaluated]
  simp only [result, if_true]
  cases cell <;> rfl

theorem State.endClrTransfer_goesOn {s : State} {x : Pass} {l : RingLine} (running : s.clr.pass = some x)
    (line : s.passLine x = some l) (more : l.points.drop x.done ≠ []) (work : Nat) : s.endClrTransfer work =
      State.colourPoints (min work (pointsFitting (s.recordTraffic x) 1024 (l.points.drop x.done))) s := by
  have unfinished : s.passAtEnd x = false := by
    rw [State.passAtEnd, line]
    refine decide_eq_false fun finished => more (List.drop_eq_nil_iff.2 finished)
  have left : s.pointsLeft x = l.points.drop x.done := by
    rw [State.pointsLeft, line]
    rfl
  rw [State.endClrTransfer, running]
  simp only [unfinished, left]
  rfl

theorem clrTransferEnds : Statement.ClrTransferEnds := by
  intro dt work x l left wanted size traffic moved s e he progress running runs hleft some_left hwanted hsize hpassed hread
    hcell hmoved
  have line : e.dramFreed.passLine x = some l := State.passLine_over (s := e.dramFreed) runs
  have evaluated (p : Point) : x.kind.evaluates p = true ↔ wanted p := (x.kind.evaluates_iff p).trans (hwanted p).symm
  have counts : e.dramFreed.recordTraffic x = traffic := by
    funext p
    have size_eq : p.size = size p := (hsize p).symm
    by_cases want : wanted p
    · cases result : evaluate e.scn.params e.clr e.exs p with
      | mk q cell =>
        rw [State.recordTraffic_evaluated (s := e.dramFreed) ((evaluated p).2 want) result, size_eq]
        cases cell with
        | none => exact (hread p q want result).symm
        | some k => exact (hcell p q k want result).symm
    · rw [State.recordTraffic_passed (Bool.eq_false_iff.2 (mt (evaluated p).1 want)), size_eq, hpassed p want]
  have fits := traffic_take_pointsFitting traffic 1024 left
  refine ⟨min work (pointsFitting traffic 1024 left), Nat.min_le_left _ _,
    (Nat.min_le_right _ _).trans (pointsFitting_le_length _ _ _), ?_, fun short room => ?_, ?_⟩
  · rw [hmoved]
    refine le_trans (List.Sublist.sum_le_sum ?_ fun _ _ => Nat.zero_le _) fits
    exact (List.take_sublist_take_left (Nat.min_le_right _ _)).map _
  · have all : min work (pointsFitting traffic 1024 left) = pointsFitting traffic 1024 left := by omega
    rw [all] at room
    rw [hmoved, all]
    exact lt_traffic_take_succ traffic 1024 left room
  · rw [exec_dramTransferEnd he, State.endTransfer_wanted progress]
    show Host.Outcome.next (e.dramFreed.endClrTransfer work).settle = _
    rw [State.endClrTransfer_goesOn (s := e.dramFreed) running line (hleft ▸ some_left), counts, ← hleft]
    rfl

/-- Settles O37: the rounds of a choice one by one, the records that fit in a transfer, and one record. -/
theorem colourWork : Obligations.ColourWork := ⟨engineChooses, clrTransferEnds, pointDealtWith⟩

end Sys2Proof.Machine

namespace Sys2Proof.Machine

/-! ### The pins that go, and the commands that waited for them (R121, R127) -/

/-- A RETIRING slot with an owner: the command has ended DONE. -/
theorem State.retireDones_done {l : List TileSlot} {t : TileSlot} {o : PortTag} (mem : t ∈ l) (owner : t.owner = some o)
    (s : State) : ((l.foldl State.retireDone s).port o.port).tags.get o.tag = none ∧
      ((s.port o.port).link = .up → replyFrame o.tag .done ∈ ((l.foldl State.retireDone s).port o.port).outgoing) := by
  induction l generalizing s with
  | nil => cases mem
  | cons u l ih =>
    rw [List.foldl_cons]
    rcases List.mem_cons.1 mem with rfl | mem
    · have done : s.retireDone t = s.finish o.port o.tag .done := by rw [State.retireDone, owner]
      obtain ⟨idle, replied⟩ := s.finish_port o.port o.tag .done
      rw [done]
      exact ⟨(Kept.foldl Kept.retireDone l _).idle _ _ idle,
        fun up => (RepliesAdded.retireDones l _).frames _ _ (replied up) rfl⟩
    · obtain ⟨idle, replied⟩ := ih mem (s.retireDone u)
      exact ⟨idle, fun up => replied (((Kept.retireDone s u).link _).trans up)⟩

theorem State.releasePins_done {s : State} {t : TileSlot} {o : PortTag} (mem : t ∈ s.clr.slots)
    (retiring : t.state = .retiring) (pinned : 0 < t.pins) (owner : t.owner = some o) :
    (s.releasePins.port o.port).tags.get o.tag = none ∧
    ((s.port o.port).link = .up → replyFrame o.tag .done ∈ (s.releasePins.port o.port).outgoing) := by
  have freed : t ∈ s.clr.retired :=
    List.mem_filter.2 ⟨mem, Bool.and_eq_true_iff.2 ⟨decide_eq_true retiring, decide_eq_true pinned⟩⟩
  exact State.retireDones_done freed owner _

/-! ### What a commit leaves, and how far it goes (R92) -/

/-- The commits change the ring's lines, the pending-line list and the attention controllers. -/
theorem State.commitReady_rest (s : State) : s.commitReady = { s with
    rng := s.commitReady.rng
    clr := { s.clr with pendingList := s.commitReady.clr.pendingList }
    atn := s.commitReady.atn } ∧ s.commitReady.rng.inProgress = s.rng.inProgress := by
  have commits (k : Nat) (s : State) : State.commitReadyIn k s = { s with
      rng := (State.commitReadyIn k s).rng
      clr := { s.clr with pendingList := (State.commitReadyIn k s).clr.pendingList }
      atn := (State.commitReadyIn k s).atn } ∧ (State.commitReadyIn k s).rng.inProgress = s.rng.inProgress := by
    induction k generalizing s with
    | zero => exact ⟨rfl, rfl⟩
    | succ k ih =>
      unfold State.commitReadyIn
      split
      · exact ⟨rfl, rfl⟩
      · rename_i l _ _
        split
        · obtain ⟨rest, progress⟩ := ih (s.commitHead l.line)
          have moved := s.commitHead_rest l.line
          have joined : (s.lineMoved l.line).clr = _ := Clr.joinPending_eq s.clr l.line
          have clr : (s.commitHead l.line).clr = { s.clr with pendingList := (s.commitHead l.line).clr.pendingList } := by
            rw [moved]
            show (s.lineMoved l.line).clr = { s.clr with pendingList := (s.lineMoved l.line).clr.pendingList }
            rw [joined]
          have same : (s.commitHead l.line).rng.inProgress = s.rng.inProgress := by
            rw [moved]
            rfl
          refine ⟨?_, progress.trans same⟩
          rw [rest, clr, moved]
          rfl
        · exact ⟨rfl, rfl⟩
  exact commits _ s

/-- The lines commit as far as the first that is still COLOURING. -/
theorem State.commitReady_lines (s : State) :
    s.commitReady.rng.closed = s.rng.closed.dropWhile (fun x => decide (x.state ≠ .colouring)) ∧
    ∃ more, s.commitReady.rng.committed = s.rng.committed ++ more := by
  generalize lines : s.rng.closed = closed
  induction closed generalizing s with
  | nil =>
    rw [State.commitReady_nil lines, lines]
    exact ⟨rfl, [], (List.append_nil _).symm⟩
  | cons x rest ih =>
    by_cases colouring : x.state = .colouring
    · rw [State.commitReady_waits lines colouring, lines, List.dropWhile_cons_of_neg (by simpa using colouring)]
      exact ⟨rfl, [], (List.append_nil _).symm⟩
    · have moved := s.commitHead_lines x.line
      have left : (s.commitHead x.line).rng.closed = rest := by
        rw [moved.closed]
        show s.rng.closed.tail = rest
        rw [lines, List.tail_cons]
      have joined : (s.commitHead x.line).rng.committed = _ := moved.committed
      obtain ⟨closed, more, committed⟩ := ih (s.commitHead x.line) left
      rw [State.commitReady_head lines colouring, List.dropWhile_cons_of_pos (by simpa using colouring)]
      refine ⟨closed, { x.line with header := { x.line.header with lostBefore := s.rng.lostBeforeOf x.line.number } } :: more,
        ?_⟩
      rw [committed, joined]
      exact List.append_assoc _ _ _

/-- A ready head commits first, with its lost-before count. -/
theorem State.commitReady_first {s : State} {x : ClosedLine} {rest : List ClosedLine} (head : s.rng.closed = x :: rest)
    (ready : x.state ≠ .colouring) :
    s.commitReady.rng.closed = rest.dropWhile (fun x => decide (x.state ≠ .colouring)) ∧
    ∃ lost more, s.commitReady.rng.committed =
      s.rng.committed ++ { x.line with header := { x.line.header with lostBefore := lost } } :: more := by
  have moved := s.commitHead_lines x.line
  obtain ⟨closed, -⟩ := s.commitReady_lines
  obtain ⟨-, more, committed⟩ := (s.commitHead x.line).commitReady_lines
  rw [head, List.dropWhile_cons_of_pos (by simpa using ready)] at closed
  refine ⟨closed, s.rng.lostBeforeOf x.line.number, more, ?_⟩
  rw [State.commitReady_head head ready, committed, moved.committed]
  exact List.append_assoc _ _ _

/-! ### The end of a first pass (R137) -/

/-- A pass that has dealt with every record of its line ends with CLR's transfer. -/
theorem State.endTransfer_endPass {s : State} {x : Pass} {l : RingLine} (progress : s.rng.inProgress = some ⟨.clr, true⟩)
    (running : s.clr.pass = some x) (line : s.passLine x = some l) (dealt : l.points.length ≤ x.done) (work : Nat) :
    s.endTransfer work = (s.dramFreed.endPass x).settle := by
  have ended : s.dramFreed.passAtEnd x = true := by
    have line : s.dramFreed.passLine x = some l := line
    rw [State.passAtEnd, line]
    exact decide_eq_true dealt
  have running : s.dramFreed.clr.pass = some x := running
  have ends : s.dramFreed.endClrTransfer work = s.dramFreed.endPass x := by
    rw [State.endClrTransfer, running]
    exact if_pos ended
  rw [State.endTransfer_wanted progress, ← ends]
  rfl

theorem State.passEnds_eq {s : State} {x : Pass} {l : RingLine} (progress : s.rng.inProgress = some ⟨.clr, true⟩)
    (running : s.clr.pass = some x) (line : s.passLine x = some l) (dealt : l.points.length ≤ x.done)
    (kind : PassKind → Bool) : s.passEnds kind = kind x.kind := by
  have ended : s.passAtEnd x = true := by
    rw [State.passAtEnd, line]
    exact decide_eq_true dealt
  rw [State.passEnds, progress, running]
  simp only [ended, Bool.and_true]

/-- The first pass has written the header, and no pin has gone yet. -/
def State.firstPassWritten (s : State) (x : Pass) : State := { s with
  rng := s.rng.mapClosed x.line (fun l => ⟨l.line.writeHeader (fun h => h.firstPass x.tally), .coloured⟩)
  clr := { s.clr with pass := none, colourQueue := s.clr.colourQueue.erase x.line } }

theorem State.endFirstPass_eq (s : State) (x : Pass) :
    s.endFirstPass x = (s.firstPassWritten x).releasePins.commitReady := rfl

theorem Rng.mapClosed_at {r : Rng} {n : Nat} {before after : List ClosedLine} {l : ClosedLine}
    (closed : r.closed = before ++ l :: after) (number : l.line.number = n) (first : ∀ y ∈ before, y.line.number ≠ n)
    (last : ∀ y ∈ after, y.line.number ≠ n) (f : ClosedLine → ClosedLine) :
    (r.mapClosed n f).closed = before ++ f l :: after := by
  have others {ls : List ClosedLine} (other : ∀ y ∈ ls, y.line.number ≠ n) :
      ls.map (fun l => if l.line.number = n then f l else l) = ls :=
    (List.map_congr_left fun y mem => if_neg (other y mem)).trans (List.map_id' ls)
  rw [Rng.mapClosed, closed, List.map_append, List.map_cons, others first, others last, if_pos number]

theorem Rng.mapCommitted_at {r : Rng} {n : Nat} {before after : List RingLine} {l : RingLine}
    (committed : r.committed = before ++ l :: after) (number : l.number = n) (first : ∀ y ∈ before, y.number ≠ n)
    (last : ∀ y ∈ after, y.number ≠ n) (f : RingLine → RingLine) :
    (r.mapCommitted n f).committed = before ++ f l :: after := by
  have others {ls : List RingLine} (other : ∀ y ∈ ls, y.number ≠ n) :
      ls.map (fun l => if l.number = n then f l else l) = ls :=
    (List.map_congr_left fun y mem => if_neg (other y mem)).trans (List.map_id' ls)
  rw [Rng.mapCommitted, committed, List.map_append, List.map_cons, others first, others last, if_pos number]

namespace LineColours

variable {s : State}

/-- The closed lines around one bear other numbers. -/
theorem closed_others (inv : LineColours s) {before after : List ClosedLine} {l : ClosedLine}
    (closed : s.rng.closed = before ++ l :: after) :
    (∀ y ∈ before, y.line.number ≠ l.line.number) ∧ ∀ y ∈ after, y.line.number ≠ l.line.number := by
  have ascending := inv.closed_ascending
  rw [closed, List.map_append, List.map_cons, List.pairwise_append, List.pairwise_cons] at ascending
  obtain ⟨-, ⟨above, -⟩, below⟩ := ascending
  exact ⟨fun y mem => (below _ (List.mem_map_of_mem mem) _ List.mem_cons_self).ne,
    fun y mem => (above _ (List.mem_map_of_mem mem)).ne'⟩

/-- The committed lines around one bear lower and higher numbers. -/
theorem committed_others (inv : LineColours s) {before after : List RingLine} {l : RingLine}
    (committed : s.rng.committed = before ++ l :: after) :
    (∀ y ∈ before, y.number < l.number) ∧ ∀ y ∈ after, l.number < y.number := by
  have ascending := inv.committed_ascending
  rw [committed, List.map_append, List.map_cons, List.pairwise_append, List.pairwise_cons] at ascending
  obtain ⟨-, ⟨above, -⟩, below⟩ := ascending
  exact ⟨fun y mem => below _ (List.mem_map_of_mem mem) _ List.mem_cons_self,
    fun y mem => above _ (List.mem_map_of_mem mem)⟩

end LineColours

theorem firstPassEnds : Statement.FirstPassEnds := by
  intro dt n done tally count l l' before after s e he inv progress pass closed number dealt hcount hl'
  have inv := (lineColourInv_iff e).1 inv
  have number : l.number = n := number
  obtain ⟨first, last⟩ := inv.closed_others closed
  rw [number] at first last
  have line : e.passLine ⟨n, .firstPass, done, tally⟩ = some l :=
    State.passLine_over (x := ⟨n, .firstPass, done, tally⟩) ⟨number, fun _ => ⟨before, _, after, closed, first⟩, nofun⟩
  have tally_eq : tally = count := by
    obtain ⟨colouring, -, -⟩ := inv.closed ⟨l, .colouring⟩ (closed ▸ List.mem_append_right _ List.mem_cons_self)
    obtain ⟨-, counted, -⟩ := colouring rfl
    rw [show (ClosedLine.mk l .colouring).line.number = n from number,
      Clr.firstPassOn_same (x := ⟨n, .firstPass, done, tally⟩) (Clr.firstPassRunning_of_first pass rfl)] at counted
    exact counted.symm.trans hcount.symm
  have taken : exec (.firstPassEnd dt) s = .next e.firstPassEnd := he ▸ rfl
  have ends : e.firstPassEnd = (e.dramFreed.endFirstPass ⟨n, .firstPass, done, tally⟩).settle := by
    rw [State.firstPassEnd, State.passEnds_eq progress pass line dealt, PassKind.isFirst, if_pos rfl,
      State.endTransfer_endPass progress pass line dealt]
    rfl
  have written : (e.dramFreed.firstPassWritten ⟨n, .firstPass, done, tally⟩).releasePins.rng.closed =
      before ++ ⟨l', .coloured⟩ :: after := by
    rw [State.releasePins_rest]
    show (e.rng.mapClosed n _).closed = _
    rw [Rng.mapClosed_at closed number first last, hl', ← tally_eq]
    rfl
  have committed : (e.dramFreed.firstPassWritten ⟨n, .firstPass, done, tally⟩).releasePins.rng.committed =
      e.rng.committed := by
    rw [State.releasePins_rest]
    rfl
  obtain ⟨rest, free⟩ := (e.dramFreed.firstPassWritten ⟨n, .firstPass, done, tally⟩).releasePins.commitReady_rest
  refine ⟨_, taken.trans (congrArg Host.Outcome.next ends), fun heads => ?_, fun x others head colouring => ?_, ?_⟩
  · rw [heads, List.nil_append] at written
    obtain ⟨left, lost, more, joined⟩ := State.commitReady_first written ClosedState.noConfusion
    rw [committed] at joined
    exact ⟨lost, more, left, joined⟩
  · rw [State.endFirstPass_eq, State.commitReady_waits (x := x) (by rw [written, head]; rfl) colouring]
    exact ⟨committed, written⟩
  · rw [State.endFirstPass_eq, free, rest, State.releasePins_rest]
    refine ⟨rfl, rfl, rfl, rfl, fun t mem o retiring pinned owner => ?_, rfl, rfl, rfl, rfl, rfl, rfl⟩
    exact State.releasePins_done (s := e.dramFreed.firstPassWritten ⟨n, .firstPass, done, tally⟩) mem retiring pinned owner

end Sys2Proof.Machine

namespace Sys2Proof.Machine

/-! ### The change notice, port by port (R159) -/

/-- A client's side once the change notice for line `n` has been taken: its entry turns CHANGED and RECOLOUR is raised. -/
def ClientSide.noticed (n : Nat) (c : ClientSide) : ClientSide :=
  ⟨c.stream.markChanged n, c.port, if c.stream.watches n then c.atn.raise evRecolour c.port.link else c.atn⟩

theorem Stream.markChanged_unwatched {st : Stream} {n : Nat} (unwatched : st.watches n = false) : st.markChanged n = st := by
  have others : st.table.map (fun e => if e.line = n then { e with state := .changed } else e) = st.table := by
    refine (List.map_congr_left fun e mem => if_neg fun line => ?_).trans (List.map_id' _)
    rw [Stream.watches, List.any_eq_false] at unwatched
    exact unwatched e mem (decide_eq_true line)
  rw [Stream.markChanged, others]

theorem Stream.watches_iff (st : Stream) (n : Nat) : st.watches n = true ↔ ∃ x ∈ st.table, x.line = n := by
  rw [Stream.watches, List.any_eq_true]
  exact exists_congr fun _ => and_congr_right fun _ => decide_eq_true_iff

theorem PortWise.changeNoticeOn (n : Nat) : PortWise (State.changeNoticeOn n) (ClientSide.noticed n) := by
  constructor
  · intro s p
    cases watched : (s.stream p).watches n with
    | false =>
      have same : s.changeNoticeOn n p = s := by
        rw [State.changeNoticeOn, watched]
        rfl
      have unwatched : (s.clientSide p).stream.watches n = false := watched
      rw [same, ClientSide.noticed, Stream.markChanged_unwatched unwatched, unwatched]
      rfl
    | true =>
      have noticed : s.changeNoticeOn n p = (s.modStr p (fun st => st.markChanged n)).raiseOn p evRecolour := by
        rw [State.changeNoticeOn, watched]
        rfl
      have watched : (s.clientSide p).stream.watches n = true := watched
      rw [noticed, ClientSide.noticed, watched]
      simp [State.clientSide, State.stream, State.port]
  · intro s p q apart
    unfold State.changeNoticeOn
    split
    · rw [State.clientSide, State.atn_raiseOn_other _ evRecolour apart]
      exact State.clientSide_modStr_other s apart (fun st => st.markChanged n)
    · rfl

theorem State.changeNotice_clientSide (s : State) (n : Nat) (p : PortId) :
    (s.changeNotice n).clientSide p = (s.clientSide p).noticed n := (PortWise.changeNoticeOn n).clientSide s p

theorem State.changeNotice_rest (s : State) (n : Nat) :
    s.changeNotice n = { s with str := (s.changeNotice n).str, atn := (s.changeNotice n).atn } := by
  have one (s : State) (p : PortId) : s.changeNoticeOn n p =
      { s with str := (s.changeNoticeOn n p).str, atn := (s.changeNoticeOn n p).atn } := by
    unfold State.changeNoticeOn
    split <;> rfl
  have all (l : List PortId) (s : State) : l.foldl (State.changeNoticeOn n) s =
      { s with str := (l.foldl (State.changeNoticeOn n) s).str, atn := (l.foldl (State.changeNoticeOn n) s).atn } := by
    induction l generalizing s with
    | nil => rfl
    | cons p l ih => rw [List.foldl_cons, ih, one]
  exact all allPorts s

/-! ### A reader held at a PENDING line (R147, R154) -/

section HeldReader

variable {r : Rng} {st : Stream} {before after : List RingLine} {l : RingLine}

theorem deliverable_settled (opened : st.isOpen = true) (mode : st.mode = .settled)
    (committed : r.committed = before ++ l :: after) (passed : ∀ x ∈ before, x.number ≤ st.readPoint)
    (ahead : st.readPoint < l.number) : deliverable r st = if l.header.colour = .settled then some l else none := by
  have next : candidate r st = some l := by
    refine List.find?_eq_some_iff_append.2 ⟨decide_eq_true ahead, before, after, committed, fun x mem => ?_⟩
    rw [decide_eq_false (Nat.not_lt.2 (passed x mem))]
    rfl
  simp only [deliverable, opened, if_true, next, mode]

end HeldReader

/-! ### The end of a back-fill step (R142, R143) -/

/-- The step has written the header, if it writes one, and no pin has gone yet. -/
def State.stepWritten (s : State) (x : Pass) : State := { s with
  rng := if x.tally = 0 then s.rng else s.rng.mapCommitted x.line (RingLine.writeHeader (fun h => h.stepped x.tally))
  clr := { s.clr with
    pass := none
    pendingList :=
      if (s.rng.lookup x.line).any (fun l => decide ((l.header.stepped x.tally).colour = .settled)) then
        s.clr.pendingList.filter (fun n => decide (n ≠ x.line))
      else s.clr.pendingList } }

theorem State.endStep_eq (s : State) (x : Pass) : s.endStep x =
    if x.tally = 0 then (s.stepWritten x).releasePins
    else State.raiseReady s ((s.stepWritten x).releasePins.changeNotice x.line) := by
  rw [State.endStep, State.stepWritten]
  cases s.rng.lookup x.line <;> rfl

theorem LineHeader.stepped_colour (h : LineHeader) (left : Nat) :
    (h.stepped left).colour = .settled ↔ h.pendingCount - left = 0 := by
  show (if h.pendingCount - left = 0 then LineColour.settled else .pending) = .settled ↔ _
  split <;> simp_all

/-- The line of the step as its end leaves it. -/
theorem RingLine.writeHeader_stepped {l : RingLine} {tally count : Nat} (counted : l.header.pendingCount - tally = count) :
    l.writeHeader (fun h => h.stepped tally) =
      ⟨{ l.header with pendingCount := count, colour := if count = 0 then .settled else .pending },
        { l.dramHeader with pendingCount := count, colour := if count = 0 then .settled else .pending }, l.points⟩ := by
  subst counted
  rfl

/-- The state after a step that wrote its header. -/
theorem State.endStep_wrote {s : State} {x : Pass} (some_left : x.tally ≠ 0) : s.endStep x =
    { (s.stepWritten x).releasePins with
      str := ((s.stepWritten x).releasePins.changeNotice x.line).str
      atn := (s.endStep x).atn } := by
  have ends : s.endStep x = State.raiseReady s ((s.stepWritten x).releasePins.changeNotice x.line) := by
    rw [State.endStep_eq, if_neg some_left]
  have ready (u : State) : State.raiseReady s u = { u with atn := (State.raiseReady s u).atn } := by
    rw [State.raiseReady_eq]
  refine (ends.trans (ready _)).trans ?_
  rw [← ends, State.changeNotice_rest]

theorem State.deliverable_raiseReady (before s : State) (p : PortId) :
    (State.raiseReady before s).deliverable p = s.deliverable p := by
  rw [State.raiseReady_eq]
  rfl

section StepEnds

variable {s : State} {x : Pass}

theorem State.stepWritten_clientSide (s : State) (x : Pass) (p : PortId) :
    ((s.stepWritten x).releasePins.stream p = s.stream p) ∧ (s.stepWritten x).releasePins.atn = s.atn ∧
      ((s.stepWritten x).releasePins.port p).link = (s.port p).link := by
  refine ⟨?_, ?_, (Kept.releasePins (s.stepWritten x)).link p⟩
  · rw [State.releasePins_rest]
    rfl
  · rw [State.releasePins_rest]
    rfl

/-- What the readers see once the step has written its header. -/
theorem State.endStep_stream (some_left : x.tally ≠ 0) (p : PortId) :
    (s.endStep x).stream p = (s.stream p).markChanged x.line := by
  obtain ⟨stream, -, -⟩ := s.stepWritten_clientSide x p
  rw [State.endStep_wrote some_left, ← stream]
  exact congrArg ClientSide.stream ((s.stepWritten x).releasePins.changeNotice_clientSide x.line p)

/-- RECOLOUR where the line is watched, then READY where a line is deliverable now and none was (R154, R159). -/
theorem State.endStep_atn (some_left : x.tally ≠ 0) (p : PortId) : (s.endStep x).atn.get p =
    if s.deliverable p = none ∧ (s.endStep x).deliverable p ≠ none then
      Atn.raise evReady (s.port p).link
        (if (s.stream p).watches x.line then (s.atn.get p).raise evRecolour (s.port p).link else s.atn.get p)
    else if (s.stream p).watches x.line then (s.atn.get p).raise evRecolour (s.port p).link else s.atn.get p := by
  obtain ⟨stream, atn, link⟩ := s.stepWritten_clientSide x p
  have ends : s.endStep x = State.raiseReady s ((s.stepWritten x).releasePins.changeNotice x.line) := by
    rw [State.endStep_eq, if_neg some_left]
  have noticed : ((s.stepWritten x).releasePins.changeNotice x.line).atn.get p =
      if (s.stream p).watches x.line then (s.atn.get p).raise evRecolour (s.port p).link else s.atn.get p := by
    refine (congrArg ClientSide.atn ((s.stepWritten x).releasePins.changeNotice_clientSide x.line p)).trans ?_
    show (if ((s.stepWritten x).releasePins.stream p).watches x.line then
      ((s.stepWritten x).releasePins.atn.get p).raise evRecolour ((s.stepWritten x).releasePins.port p).link
      else (s.stepWritten x).releasePins.atn.get p) = _
    rw [stream, atn, link]
  have ports : (((s.stepWritten x).releasePins.changeNotice x.line).port p).link = (s.port p).link :=
    ((Kept.changeNotice _ x.line).link p).trans link
  have sees : (s.endStep x).deliverable p = ((s.stepWritten x).releasePins.changeNotice x.line).deliverable p := by
    rw [ends]
    exact State.deliverable_raiseReady _ _ p
  rw [sees, ends, State.atn_raiseReady, noticed, ports]

/-- What a step's end leaves, whether or not it wrote the header. -/
theorem State.endStep_leaves (s : State) (x : Pass) : (s.endStep x).clr = (s.stepWritten x).releasePins.clr ∧
    (s.endStep x).rng = (s.stepWritten x).rng ∧ (s.endStep x).prt = (s.stepWritten x).releasePins.prt ∧
    (s.endStep x).lnb = s.lnb := by
  have rng : (s.stepWritten x).releasePins.rng = (s.stepWritten x).rng := by rw [State.releasePins_rest]
  have lnb : (s.stepWritten x).releasePins.lnb = s.lnb := by
    rw [State.releasePins_rest]
    rfl
  by_cases nothing : x.tally = 0
  · rw [State.endStep_eq, if_pos nothing]
    exact ⟨rfl, rng, rfl, lnb⟩
  · rw [State.endStep_wrote nothing]
    exact ⟨rfl, rng, rfl, lnb⟩

/-- A step that takes no record out of PENDING writes nothing and raises nothing. -/
theorem State.endStep_nothing (nothing : x.tally = 0) :
    (s.endStep x).rng.committed = s.rng.committed ∧ (s.endStep x).str = s.str ∧ (s.endStep x).atn = s.atn := by
  have ends : s.endStep x = (s.stepWritten x).releasePins := by rw [State.endStep_eq, if_pos nothing]
  have written : (s.stepWritten x).rng = s.rng := if_pos nothing
  rw [ends, State.releasePins_rest]
  exact ⟨congrArg Rng.committed written, rfl, rfl⟩

end StepEnds

/-- A back-fill step that ends on its line, as `Statement.BackfillStepEnds` gives it. -/
structure StepEnding (s : State) (x : Pass) (before : List RingLine) (l : RingLine) (after : List RingLine) (count : Nat) :
    Prop where
  step : x.kind ≠ .firstPass
  committed : s.rng.committed = before ++ l :: after
  number : l.number = x.line
  below : ∀ y ∈ before, y.number < x.line
  above : ∀ y ∈ after, x.line < y.number
  counted : l.header.pendingCount - x.tally = count

namespace StepEnding

variable {s : State} {x : Pass} {before after : List RingLine} {l : RingLine} {count : Nat}

theorem passesOver (h : StepEnding s x before l after count) : s.passesOver x l :=
  ⟨h.number, fun kind => absurd kind h.step, fun _ => ⟨before, after, h.committed, fun y mem => (h.below y mem).ne⟩⟩

theorem lookup (h : StepEnding s x before l after count) : s.rng.lookup x.line = some l :=
  (State.passLine_step h.step).symm.trans (State.passLine_over h.passesOver)

theorem pendingList (h : StepEnding s x before l after count) : (s.stepWritten x).clr.pendingList =
    if count = 0 then s.clr.pendingList.filter (fun m => decide (m ≠ x.line)) else s.clr.pendingList := by
  simp only [State.stepWritten, h.lookup, Option.any_some, LineHeader.stepped_colour, h.counted, decide_eq_true_iff]

theorem written (h : StepEnding s x before l after count) (some_left : x.tally ≠ 0) :
    (s.endStep x).rng.committed = before ++
      ⟨{ l.header with pendingCount := count, colour := if count = 0 then .settled else .pending },
        { l.dramHeader with pendingCount := count, colour := if count = 0 then .settled else .pending }, l.points⟩
        :: after := by
  obtain ⟨-, rng, -, -⟩ := s.endStep_leaves x
  have mapped : (s.stepWritten x).rng = s.rng.mapCommitted x.line (RingLine.writeHeader (fun h => h.stepped x.tally)) :=
    if_neg some_left
  rw [rng, mapped, Rng.mapCommitted_at h.committed h.number (fun y mem => (h.below y mem).ne)
    (fun y mem => (h.above y mem).ne'), RingLine.writeHeader_stepped h.counted]

/-- A SETTLED reader that was held at the line has it now. -/
theorem readies (h : StepEnding s x before l after count) (some_left : x.tally ≠ 0) (none_left : count = 0) {p : PortId}
    (opened : (s.stream p).isOpen = true) (mode : (s.stream p).mode = .settled) (ahead : (s.stream p).readPoint < x.line)
    (passed : ∀ y ∈ before, y.number ≤ (s.stream p).readPoint) (pending : l.header.colour = .pending) :
    s.deliverable p = none ∧ (s.endStep x).deliverable p ≠ none := by
  have held : s.deliverable p = _ := deliverable_settled opened mode h.committed passed (h.number ▸ ahead)
  have gets : (s.endStep x).deliverable p = _ := deliverable_settled (r := (s.endStep x).rng)
    (st := (s.endStep x).stream p) (by rw [State.endStep_stream some_left]; exact opened)
    (by rw [State.endStep_stream some_left]; exact mode) (h.written some_left)
    (by rw [State.endStep_stream some_left]; exact passed) (by
      rw [State.endStep_stream some_left]
      show (s.stream p).readPoint < l.number
      exact h.number ▸ ahead)
  rw [held, gets]
  simp only [pending, none_left, if_true, reduceCtorEq, if_false, true_and]
  exact Option.some_ne_none _

end StepEnding

theorem backfillStepEnds : Statement.BackfillStepEnds := by
  intro dt n done tally count k l before after s e he inv progress pass step committed number dealt hcount
  have inv := (lineColourInv_iff e).1 inv
  have number : l.number = n := number
  obtain ⟨below, above⟩ := inv.committed_others committed
  rw [number] at below above
  have counted : l.header.pendingCount - tally = count := by
    obtain ⟨-, all⟩ := inv.committed l (committed ▸ List.mem_append_right _ List.mem_cons_self)
    rw [number, Clr.leftPending_same (x := ⟨n, k, done, tally⟩) (Clr.stepRunning_of_step pass step)] at all
    have all : l.header.pendingCount = count + tally := hcount ▸ all
    omega
  have ending : StepEnding e.dramFreed ⟨n, k, done, tally⟩ before l after count :=
    ⟨step, committed, number, below, above, counted⟩
  have line : e.passLine ⟨n, k, done, tally⟩ = some l := State.passLine_over (s := e.dramFreed) ending.passesOver
  have taken : exec (.backfillStepEnd dt) s = .next e.backfillStepEnd := he ▸ rfl
  have ends : e.backfillStepEnd = (e.dramFreed.endStep ⟨n, k, done, tally⟩).settle := by
    have isStep : k.isStep = true := by
      rw [← Bool.not_eq_false, k.isStep_eq_false_iff]
      exact step
    rw [State.backfillStepEnd, State.passEnds_eq progress pass line dealt, isStep, if_pos rfl,
      State.endTransfer_endPass progress pass line dealt, State.endPass]
    cases k with
    | firstPass => exact absurd rfl step
    | task e => rfl
    | sweep => rfl
  have wrote (some_left : 1 ≤ tally) : (⟨n, k, done, tally⟩ : Pass).tally ≠ 0 := Nat.ne_of_gt some_left
  have kept := Kept.endStep e.dramFreed ⟨n, k, done, tally⟩
  obtain ⟨clr, rng, prt, lnb⟩ := e.dramFreed.endStep_leaves ⟨n, k, done, tally⟩
  refine ⟨_, taken.trans (congrArg Host.Outcome.next ends), fun nothing => State.endStep_nothing nothing,
    fun some_left p a ha => ?_, fun some_left none_left p opened mode ahead passed pending up => ?_,
    fun some_left => ⟨ending.written (wrote some_left), fun p => ?_, fun p watched up => ?_⟩, ?_⟩
  · rw [State.endStep_atn (wrote some_left), ha]
    simp only [Stream.watches_iff]
    rfl
  · show Atn.shows evReady _
    rw [State.endStep_atn (wrote some_left),
      if_pos (ending.readies (wrote some_left) none_left opened mode ahead passed pending)]
    have up : (e.dramFreed.port p).link = .up := up
    rw [up]
    exact Atn.shows_raise evReady _
  · rw [State.endStep_stream (wrote some_left)]
    rfl
  · show Atn.shows evRecolour _
    have up : (e.dramFreed.port p).link = .up := up
    have watched : (e.dramFreed.stream p).watches n = true := (Stream.watches_iff _ n).2 watched
    rw [State.endStep_atn (wrote some_left), if_pos watched, up]
    have recoloured := Atn.shows_raise evRecolour (e.dramFreed.atn.get p)
    split
    · exact Atn.shows_raisable evRecolour _ _ _ recoloured
    · exact recoloured
  · have port (p : PortId) : (e.dramFreed.endStep ⟨n, k, done, tally⟩).port p =
        (e.dramFreed.stepWritten ⟨n, k, done, tally⟩).releasePins.port p := by rw [State.port, State.port, prt]
    have list := ending.pendingList
    rw [clr, rng, lnb, kept.tb, kept.scn, kept.exs, kept.pending]
    simp only [port]
    rw [State.releasePins_rest]
    refine ⟨list, rfl, ?_, rfl, fun t mem o retiring pinned owner => ?_, rfl, rfl, rfl, rfl, rfl, rfl⟩
    · show (if _ then _ else _ : Rng).inProgress = none
      split <;> rfl
    · exact State.releasePins_done (s := e.dramFreed.stepWritten ⟨n, k, done, tally⟩) mem retiring pinned owner

/-- Settles O36: a pass that has dealt with every record writes the header, which counts as the invariant says
(`LineColours`), and lets the pins go (`State.releasePins_done`); the lines commit (`State.commitReady_first`) or the readers
are told (`State.endStep_atn`). -/
theorem colourPassesEnd : Obligations.ColourPassesEnd := ⟨firstPassEnds, backfillStepEnds⟩

end Sys2Proof.Machine

namespace Sys2Proof.Machine

/-! ### The stream commands take their own rules (R169) -/

section StreamCommandsTaken

variable {dt : Nat} {p : PortId} {tag : Tag} {s e : State}

theorem exec_streamOpen_ready (he : e = s.elapse dt) (ready : e.ready p tag) (mode start : Byte) (line : BitVec 32) :
    exec (.streamOpen dt p tag mode start line) s = .next ((e.clearSense p).takeStreamOpen p tag mode start line) := by
  subst he
  exact congrArg Host.Outcome.next (client_ready ready rfl _)

theorem exec_streamClose_ready (he : e = s.elapse dt) (ready : e.ready p tag) :
    exec (.streamClose dt p tag) s = .next ((e.clearSense p).takeStreamClose p tag) := by
  subst he
  exact congrArg Host.Outcome.next (client_ready ready rfl _)

theorem exec_linesRead_ready (he : e = s.elapse dt) (ready : e.ready p tag) (count : Byte) :
    exec (.linesRead dt p tag count) s = .next ((e.clearSense p).takeLinesRead p tag count) := by
  subst he
  exact congrArg Host.Outcome.next (client_ready ready rfl _)

theorem exec_linesRelease_ready (he : e = s.elapse dt) (ready : e.ready p tag) (n : BitVec 32) :
    exec (.linesRelease dt p tag n) s = .next ((e.clearSense p).takeLinesRelease p tag n) := by
  subst he
  exact congrArg Host.Outcome.next (client_ready ready rfl _)

theorem exec_linesCheck_ready (he : e = s.elapse dt) (ready : e.ready p tag) :
    exec (.linesCheck dt p tag) s = .next ((e.clearSense p).takeLinesCheck p tag) := by
  subst he
  exact congrArg Host.Outcome.next (client_ready ready rfl _)

theorem exec_lineFind_ready (he : e = s.elapse dt) (ready : e.ready p tag) (start : BitVec 32) (criterion : Byte)
    (azimuth : Angle) (mask value : Byte) (invert : Bool) :
    exec (.lineFind dt p tag start criterion azimuth mask value invert) s =
      .next ((e.clearSense p).takeLineFind p tag start criterion azimuth mask value invert) := by
  subst he
  exact congrArg Host.Outcome.next (client_ready ready rfl _)

end StreamCommandsTaken

/-! ### A change of a stream beside a change of a port -/

@[simp] theorem State.stream_clearSense (s : State) (p q : PortId) : (s.clearSense p).stream q = s.stream q := rfl

theorem State.modPort_modStr (s : State) (p q : PortId) (f : Stream → Stream) (g : Port → Port) :
    (s.modStr p f).modPort q g = (s.modPort q g).modStr p f := rfl

@[simp] theorem State.modStr_modStr (s : State) (p : PortId) (f g : Stream → Stream) :
    (s.modStr p f).modStr p g = s.modStr p (fun st => g (f st)) := by
  simp only [State.modStr, Quad.modify, Quad.get_set_same, Quad.set_set]

/-- A command that changes its stream and is answered at once. -/
theorem State.answer_modStr_taken {s : State} {p : PortId} (up : (s.port p).link = .up) (tag : Tag) (st : Status)
    (f : Stream → Stream) : ((s.clearSense p).modStr p f).answer p tag st = (s.replied p tag st).modStr p f := by
  rw [State.answer, State.modPort_modStr]
  exact congrArg (State.modStr · p f) (State.reply_taken up tag st)

/-! ### LINES RELEASE (R155) -/

/-- Settles O48: the stream's release point and the reply are two changes that do not meet. -/
theorem linesReleaseCommand : Obligations.LinesReleaseCommand := by
  intro dt p tag n s e he ready
  rw [exec_linesRelease_ready he ready, State.takeLinesRelease, State.stream_clearSense]
  refine ⟨fun shut => ?_, fun opened => ?_⟩
  · rw [if_neg (ne_true_of_eq_false shut), State.refuse_taken ready.1]
  · rw [if_pos opened, State.answer_modStr_taken ready.1]
    rfl

end Sys2Proof.Machine

namespace Sys2Proof.Machine

/-! ### LINES CHECK (R161) -/

theorem length_checkReport (mark : Option Nat) (lines : List Nat) :
    (checkReport mark lines).length = 8 + 4 * lines.length := by
  have entries : (lines.flatMap (leBytes 4)).length = 4 * lines.length := by
    simp only [List.length_flatMap, length_leBytes, List.map_const', List.sum_replicate_nat, Nat.mul_comm]
  simp only [checkReport, boolByte, zeros, List.length_append, length_leBytes, List.length_replicate, entries]

theorem checkReport_eq (mark : Option Nat) (lines : List Nat) : checkReport mark lines =
    leBytes 4 (mark.getD 0) ++ [(if mark.isSome then 1 else 0), BitVec.ofNat 8 lines.length, 0, 0]
      ++ lines.flatMap (leBytes 4) := by
  cases mark <;> rfl

theorem linesCheckCommand : Statement.LinesCheckCommand := by
  intro dt p tag s e changed he ready hchanged few
  have lines : (e.stream p).changedLines = changed := hchanged.symm
  have report : payloadsOf (checkReport (e.stream p).unsure changed) = [checkReport (e.stream p).unsure changed] := by
    have length := length_checkReport (e.stream p).unsure changed
    refine payloadsOf_single (List.ne_nil_of_length_pos ?_) ?_ <;> omega
  have read : (e.clearSense p).deliver p tag 0x44 [checkReport (e.stream p).unsure changed] = _ :=
    State.read_taken ready.1 tag 0x44 _
  rw [exec_linesCheck_ready he ready, State.takeLinesCheck, State.stream_clearSense, lines, report]
  show Host.Outcome.next (((e.clearSense p).deliver p tag 0x44 [checkReport (e.stream p).unsure changed]).modStr p
    Stream.collected) = _
  rw [read, checkReport_eq]
  rfl

/-! ### LINE FIND (R162, R163) -/

theorem State.answerFind_taken {s : State} {p : PortId} (up : (s.port p).link = .up) (tag : Tag) (found : Option Nat) :
    (s.clearSense p).answerFind p tag found = s.withPort p
      { (s.port p).sent [replyFrame tag (if found.isSome then .isMatch else .done)] with
        sense := ⟨.none, 0, found.getD 0, found.isSome, tag⟩ } := by
  rw [State.answerFind, State.clearSense_eq, State.modPort_withPort, State.answer, State.modPort_withPort, Port.answer,
    Port.hand_of_up (by exact up)]
  rfl

/-- The search names the first line from the start line on that meets the criterion. -/
theorem Rng.findLine_first {r : Rng} {start : Nat} {c : Criterion} {invert : Bool} {before after : List RingLine}
    {l : RingLine} (committed : r.committed = before ++ l :: after)
    (passed : ∀ x ∈ before, x.number < start ∨ (c.meets x.header ^^ invert) = false) (ahead : start ≤ l.number)
    (found : (c.meets l.header ^^ invert) = true) : r.findLine start c invert = some l.number := by
  refine Option.map_eq_some_iff.2 ⟨l, List.find?_eq_some_iff_append.2 ⟨?_, before, after, committed, fun x mem => ?_⟩, rfl⟩
  · rw [found, decide_eq_true ahead, Bool.and_self]
  · rcases passed x mem with below | other
    · rw [decide_eq_false (Nat.not_le.2 below), Bool.false_and, Bool.not_false]
    · rw [other, Bool.and_false, Bool.not_false]

theorem Rng.findLine_none {r : Rng} {start : Nat} {c : Criterion} {invert : Bool}
    (passed : ∀ x ∈ r.committed, x.number < start ∨ (c.meets x.header ^^ invert) = false) :
    r.findLine start c invert = none := by
  refine Option.map_eq_none_iff.2 (List.find?_eq_none.2 fun x mem => ?_)
  rcases passed x mem with below | other
  · rw [decide_eq_false (Nat.not_le.2 below), Bool.false_and]
    exact Bool.false_ne_true
  · rw [other, Bool.and_false]
    exact Bool.false_ne_true

theorem criterionOf_unnamed {code : Nat} (above : 1 < code) (azimuth : Angle) (mask value : Byte) :
    criterionOf code azimuth mask value = none := by
  unfold criterionOf
  split
  · omega
  · omega
  · rfl

/-- A code of R162 names a criterion, and a line matches when it meets the criterion or, inverted, when it does not. -/
theorem criterionOf_named {code : Nat} (named : code ≤ 1) (azimuth : Angle) (mask value : Byte) {invert : Bool}
    {matchesLine : RingLine → Bool}
    (byAzimuth : code = 0 → matchesLine = fun l =>
      (decide ((azimuth - l.header.firstA).toNat ≤ (l.header.lastA - l.header.firstA).toNat)) ^^ invert)
    (byFlags : code = 1 → matchesLine = fun l =>
      (decide (BitVec.ofNat 8 l.header.flags.byte &&& (mask &&& 0x3F#8) = value &&& (mask &&& 0x3F#8))) ^^ invert) :
    ∃ c, criterionOf code azimuth mask value = some c ∧ matchesLine = fun l => c.meets l.header ^^ invert := by
  obtain rfl | rfl : code = 0 ∨ code = 1 := by omega
  · exact ⟨_, rfl, byAzimuth rfl⟩
  · exact ⟨_, rfl, byFlags rfl⟩

theorem lineFindCommand : Statement.LineFindCommand := by
  intro dt p tag start criterion az mask value invert s e matchesLine he ready byAzimuth byFlags
  have search {c : Criterion} (named : criterionOf criterion.toNat az mask value = some c) :
      exec (.lineFind dt p tag start criterion az mask value invert) s =
        .next ((e.clearSense p).answerFind p tag (e.rng.findLine start.toNat c invert)) := by
    rw [exec_lineFind_ready he ready, State.takeLineFind, named]
    rfl
  refine ⟨fun above => ?_, fun before after l named committed passed ahead found => ?_, fun named passed => ?_⟩
  · rw [exec_lineFind_ready he ready, State.takeLineFind, criterionOf_unnamed above]
    exact congrArg Host.Outcome.next (State.refuse_taken ready.1 tag .arg (some 2))
  · obtain ⟨c, code, rfl⟩ := criterionOf_named named az mask value byAzimuth byFlags
    rw [search code, Rng.findLine_first committed passed ahead found, State.answerFind_taken ready.1]
    rfl
  · obtain ⟨c, code, rfl⟩ := criterionOf_named named az mask value byAzimuth byFlags
    rw [search code, Rng.findLine_none passed, State.answerFind_taken ready.1]
    rfl

/-- Settles O49: the report fits one frame (`length_checkReport`), and the search stops at the first match
(`Rng.findLine_first`). -/
theorem linesCheckAndFind : Obligations.LinesCheckAndFind := ⟨linesCheckCommand, lineFindCommand⟩

end Sys2Proof.Machine

namespace Sys2Proof.Machine

/-! ### STREAM OPEN (R148) -/

theorem streamModeOf_named {n : Nat} (named : n ≤ 1) :
    streamModeOf n = some (if n = 0 then .settled else .asis) := by
  obtain rfl | rfl : n = 0 ∨ n = 1 := by omega
  · rfl
  · rfl

theorem streamModeOf_unnamed {n : Nat} (above : 1 < n) : streamModeOf n = none := by
  unfold streamModeOf
  split
  · omega
  · omega
  · rfl

theorem streamStartOf_unnamed {n : Nat} (above : 2 < n) (line : Nat) : streamStartOf n line = none := by
  unfold streamStartOf
  split
  · omega
  · omega
  · omega
  · rfl

theorem streamStartOf_named {n : Nat} (named : n ≤ 2) (line : Nat) : ∃ st, streamStartOf n line = some st := by
  obtain rfl | rfl | rfl : n = 0 ∨ n = 1 ∨ n = 2 := by omega
  · exact ⟨_, rfl⟩
  · exact ⟨_, rfl⟩
  · exact ⟨_, rfl⟩

/-- The start line of R148: the oldest or the newest committed line, or one that the client names, which the oldest bounds
from below; a line named 0 means the oldest. -/
theorem startLineOf_named {r : Rng} {start line n : Nat} {st : StreamStart} (named : streamStartOf start line = some st)
    (oldest : start = 0 → n = (r.committed.head?.map RingLine.number).getD 1)
    (newest : start = 1 → n = (r.committed.getLast?.map RingLine.number).getD 1)
    (zero : start = 2 → line = 0 → n = (r.committed.head?.map RingLine.number).getD 1)
    (given : start = 2 → line ≠ 0 → n = max line ((r.committed.head?.map RingLine.number).getD line)) :
    startLineOf r st = n := by
  unfold streamStartOf at named
  split at named
  · cases named
    exact (oldest rfl).symm
  · cases named
    exact (newest rfl).symm
  · cases named
    cases line with
    | zero => exact (zero rfl rfl).symm
    | succ k => exact (given rfl k.succ_ne_zero).symm
  · cases named

/-- READY and the reply are two changes that do not meet. -/
theorem State.answer_readied (s : State) (p : PortId) (tag : Tag) (st : Status) :
    (if (s.deliverable p).isSome then s.raiseOn p evReady else s).answer p tag st =
      if ((s.answer p tag st).deliverable p).isSome then (s.answer p tag st).raiseOn p evReady else s.answer p tag st := by
  have link : ((s.answer p tag st).port p).link = (s.port p).link := (Kept.answer s p tag st).link p
  have same : (s.answer p tag st).deliverable p = s.deliverable p := rfl
  rw [same]
  split
  · rw [State.raiseOn, State.raiseOn, link]
    rfl
  · rfl

theorem State.openStream_taken {s : State} {p : PortId} (up : (s.port p).link = .up) (tag : Tag) (mode : StreamMode)
    (start : StreamStart) {u : State}
    (hu : u = (s.replied p tag .done).modStr p (fun _ => openedStream mode (s.port p).role (startLineOf s.rng start))) :
    (s.clearSense p).openStream p tag mode start = if (u.deliverable p).isSome then u.raiseOn p evReady else u := by
  have role : ((s.clearSense p).port p).role = (s.port p).role := by
    rw [State.clearSense_eq, State.port_withPort_same]
  rw [hu, ← State.answer_modStr_taken up, ← State.answer_readied, State.openStream, role, State.clearSense_rng]

theorem streamOpenCommand : Statement.StreamOpenCommand := by
  intro dt p tag mode start line s e u n he ready
  rw [exec_streamOpen_ready he ready, State.takeStreamOpen, State.stream_clearSense]
  refine ⟨fun above => ?_, fun named above => ?_, fun named begins opened => ?_,
    fun named begins shut oldest newest zero given hu => ?_⟩
  · rw [streamModeOf_unnamed above]
    exact congrArg Host.Outcome.next (State.refuse_taken ready.1 tag .arg (some 1))
  · rw [streamModeOf_named named, streamStartOf_unnamed above]
    exact congrArg Host.Outcome.next (State.refuse_taken ready.1 tag .arg (some 2))
  · obtain ⟨st, startsAt⟩ := streamStartOf_named begins line.toNat
    rw [streamModeOf_named named, startsAt]
    simp only [if_pos opened]
    exact congrArg Host.Outcome.next (State.refuse_taken ready.1 tag .state none)
  · obtain ⟨st, startsAt⟩ := streamStartOf_named begins line.toNat
    have first := startLineOf_named startsAt oldest newest zero given
    rw [streamModeOf_named named, startsAt]
    simp only [if_neg (ne_true_of_eq_false shut)]
    refine congrArg Host.Outcome.next (State.openStream_taken ready.1 tag _ st ?_)
    rw [hu, first]
    rfl

/-! ### STREAM CLOSE (R156) -/

theorem State.closeStream_idle_eq {s : State} {p : PortId} (opened : (s.stream p).isOpen = true)
    (idle : (s.stream p).read = none) : s.closeStream p true = (s.withdraw (.reader p)).modStr p Stream.closed := by
  rw [State.closeStream_idle opened idle]
  exact State.modStr_modStr (s.withdraw (.reader p)) p (fun st => { st with read := none }) Stream.closed

theorem State.closeStream_reading_eq {s : State} {p : PortId} {r : LinesRead} (opened : (s.stream p).isOpen = true)
    (read : (s.stream p).read = some r) : s.closeStream p true =
      ((s.finishCheck p r.tag .aborted 0 none).withdraw (.reader p)).modStr p Stream.closed := by
  rw [State.closeStream_reading opened read]
  exact State.modStr_modStr ((s.finishCheck p r.tag .aborted 0 none).withdraw (.reader p)) p
    (fun st => { st with read := none }) Stream.closed

/-- A command in flight ends with CHECK, and the command just taken is answered behind it. -/
theorem State.answer_finishCheck_taken {s : State} {p : PortId} (up : (s.port p).link = .up) (ended tag : Tag)
    (cls : SenseClass) (code : Nat) (info : Option Nat) (st : Status) :
    ((s.clearSense p).finishCheck p ended cls code info).answer p tag st = s.withPort p { (s.port p).idleTag ended with
      sense := senseOf ended cls code info
      outgoing := ((s.port p).idleTag ended).outgoing ++ [checkFrame ended cls code, replyFrame tag st] } := by
  have up' : ((s.clearSense p).port p).link = .up := by
    rw [State.clearSense_eq, State.port_withPort_same]
    exact up
  rw [State.finishCheck_up up', State.answer, State.modPort_withPort, State.clearSense_eq, State.withPort_withPort,
    State.port_withPort_same, Port.answer, Port.hand_of_up (by exact up)]
  simp only [Port.idleTag, List.append_assoc]
  rfl

theorem streamCloseCommand : Statement.StreamCloseCommand := by
  intro dt p tag s e rng stream he ready hrng hstream
  subst hrng hstream
  rw [exec_streamClose_ready he ready, State.takeStreamClose]
  refine ⟨fun shut => ?_, fun opened idle => ?_, fun r opened read => ?_⟩
  · rw [State.closeStream_closed (s := e.clearSense p) shut, State.reply_taken ready.1]
  · rw [State.closeStream_idle_eq (s := e.clearSense p) opened idle]
    show Host.Outcome.next (((((e.clearSense p).answer p tag .done).withdraw (.reader p)).modStr p Stream.closed).settle) = _
    rw [State.reply_taken ready.1]
    rfl
  · rw [State.closeStream_reading_eq (s := e.clearSense p) opened read]
    show Host.Outcome.next ((((((e.clearSense p).finishCheck p r.tag .aborted 0 none).answer p tag .done).withdraw
      (.reader p)).modStr p Stream.closed).settle) = _
    rw [State.answer_finishCheck_taken ready.1]
    rfl

/-- Settles O45: a stream opens at the start line its operands name (`startLineOf_named`), and its close ends an outstanding
LINES READ before the reply (`State.closeStream_reading_eq`, `State.answer_finishCheck_taken`). -/
theorem streamOpenAndClose : Obligations.StreamOpenAndClose := ⟨streamOpenCommand, streamCloseCommand⟩

end Sys2Proof.Machine

namespace Sys2Proof.Machine

/-! ### Which line is deliverable (R147) -/

theorem deliverable_shut {r : Rng} {st : Stream} (shut : st.isOpen = false) : deliverable r st = none := by
  rw [deliverable, if_neg (ne_true_of_eq_false shut)]

theorem deliverable_passed {r : Rng} {st : Stream} (passed : ∀ x ∈ r.committed, x.number ≤ st.readPoint) :
    deliverable r st = none := by
  have last : candidate r st = none :=
    List.find?_eq_none.2 fun x mem => Bool.eq_false_iff.1 (decide_eq_false (Nat.not_lt.2 (passed x mem)))
  rw [deliverable, last]
  exact ite_self none

theorem deliverable_asis {r : Rng} {st : Stream} {before after : List RingLine} {l : RingLine} (opened : st.isOpen = true)
    (mode : st.mode = .asis) (committed : r.committed = before ++ l :: after)
    (passed : ∀ x ∈ before, x.number ≤ st.readPoint) (ahead : st.readPoint < l.number) : deliverable r st = some l := by
  have next : candidate r st = some l := by
    refine List.find?_eq_some_iff_append.2 ⟨decide_eq_true ahead, before, after, committed, fun x mem => ?_⟩
    rw [decide_eq_false (Nat.not_lt.2 (passed x mem)), Bool.not_false]
  simp only [deliverable, opened, if_true, next, mode]

theorem deliverableLine : Statement.DeliverableLine := by
  refine fun r st before after l => ⟨deliverable_shut, deliverable_passed, fun committed passed ahead opened =>
    ⟨fun mode => deliverable_asis opened mode committed passed ahead, fun mode settled => ?_, fun mode pending => ?_⟩⟩
  · rw [deliverable_settled opened mode committed passed ahead, if_pos settled]
  · rw [deliverable_settled opened mode committed passed ahead, pending]
    rfl

/-! ### A reader begins a line (R149, R150) -/

theorem State.stepOn_iff (s : State) (n : Nat) :
    s.stepOn n = true ↔ ∃ x, s.clr.pass = some x ∧ x.kind ≠ .firstPass ∧ x.line = n := by
  unfold State.stepOn
  cases s.clr.pass with
  | none => simp
  | some x =>
    rw [Bool.and_eq_true, ← Bool.not_eq_false, PassKind.isStep_eq_false_iff, decide_eq_true_iff]
    simp

theorem State.stepOn_eq_false {s : State} {n : Nat} (free : ∀ x, s.clr.pass = some x → x.kind = .firstPass ∨ x.line ≠ n) :
    s.stepOn n = false := by
  rw [← Bool.not_eq_true, State.stepOn_iff]
  rintro ⟨x, pass, step, line⟩
  exact (free x pass).elim step (fun other => other line)

section ReaderBegins

variable {s : State} {p : PortId} {r : LinesRead} {l : RingLine} {n : Nat}

@[simp] theorem State.setRead_setRead (s : State) (p : PortId) (x y : Option LinesRead) :
    (s.setRead p x).setRead p y = s.setRead p y :=
  State.modStr_modStr s p (fun st => { st with read := x }) (fun st => { st with read := y })

theorem State.deliverable_setRead (s : State) (p : PortId) (x : Option LinesRead) :
    (s.setRead p x).deliverable p = s.deliverable p := by
  have stream : (s.setRead p x).stream p = { s.stream p with read := x } := State.stream_modStr_same s p _
  rw [State.deliverable, stream]
  rfl

/-- On a line under a back-fill step the reader waits for the step. -/
theorem State.beginLine_waits (under : s.stepOn n = true) (p : PortId) (r : LinesRead) :
    s.beginLine p r n = s.setRead p (some ⟨r.tag, r.remaining, .delivering n false 0⟩) := by
  rw [State.beginLine, if_pos under]

/-- On any other line it takes its hold and hands the header. -/
theorem State.beginLine_holds (free : s.stepOn n = false) (found : s.rng.lookup n = some l) (p : PortId) (r : LinesRead) :
    s.beginLine p r n = (s.setRead p (some ⟨r.tag, r.remaining, .delivering n true 48⟩)).modPort p
      (Port.hand ⟨r.tag, .dataIn l.header.bytes, false⟩) := by
  rw [State.beginLine, if_neg (ne_true_of_eq_false free), State.holdLine, found]
  rfl

theorem State.beginRead_line (read : (s.stream p).read = some r) (waiting : r.state = .waiting)
    (next : s.deliverable p = some l) : s.beginRead p = s.beginLine p r l.number := by
  simp only [State.beginRead, read, waiting, next]

theorem State.beginRead_noLine (read : (s.stream p).read = some r) (waiting : r.state = .waiting)
    (next : s.deliverable p = none) : s.beginRead p = s := by
  simp only [State.beginRead, read, waiting, next]

theorem State.beginRead_stepOver {sent : Nat} (read : (s.stream p).read = some r)
    (waits : r.state = .delivering n false sent) (free : s.stepOn n = false) : s.beginRead p = s.beginLine p r n := by
  have not_under : ¬ s.stepOn n = true := ne_true_of_eq_false free
  simp only [State.beginRead, read, waits, State.beginLine, if_neg not_under]

theorem State.beginRead_stepOn {sent : Nat} (read : (s.stream p).read = some r)
    (waits : r.state = .delivering n false sent) (under : s.stepOn n = true) : s.beginRead p = s := by
  simp only [State.beginRead, read, waits, if_pos under]

theorem State.beginRead_holding {sent : Nat} (read : (s.stream p).read = some r)
    (holds : r.state = .delivering n true sent) : s.beginRead p = s := by
  simp only [State.beginRead, read, holds]

end ReaderBegins

theorem waitingReaderBegins : Statement.WaitingReaderBegins := by
  intro s p r l under read found up hunder
  have hunder : under ↔ s.stepOn l.number = true := hunder.trans (s.stepOn_iff l.number).symm
  refine ⟨fun free begins => ?_, fun step waiting next => ?_, fun step waits => ?_, State.beginRead_noLine read,
    fun n sent => State.beginRead_holding read⟩
  · have free : s.stepOn l.number = false := Bool.eq_false_iff.2 (fun on => free (hunder.2 on))
    have line : s.beginRead p = s.beginLine p r l.number := by
      rcases begins with ⟨waiting, next⟩ | ⟨sent, waits⟩
      · exact State.beginRead_line read waiting next
      · exact State.beginRead_stepOver read waits free
    rw [line, State.beginLine_holds free found, State.modPort_eq_withPort, Port.hand_of_up (by exact up)]
    rfl
  · rw [State.beginRead_line read waiting next, State.beginLine_waits (hunder.1 step)]
    rfl
  · obtain ⟨sent, waits⟩ := waits
    exact State.beginRead_stepOn read waits (hunder.1 step)

/-! ### LINES READ is taken (R149) -/

theorem State.countTest_passed {s : State} {count : Byte} {largest : Nat} (few : count.toNat ≤ largest) (p : PortId)
    (tag : Tag) (operand : Nat) (k : State → State) : s.countTest p tag count largest operand k = k s := by
  rw [State.countTest, if_neg (Nat.not_lt.2 few)]

/-- A command that takes its tag and hands a frame. -/
theorem State.hand_held {s : State} {p : PortId} (up : (s.port p).link = .up) (tag : Tag) (j : Job) (f : OutFrame) :
    (s.held p tag j []).modPort p (Port.hand f) = s.held p tag j [f] := by
  rw [State.held, State.modPort_withPort, Port.hand_of_up (by exact up), State.held]
  simp [Port.sent]

/-- LINES READ has become the outstanding one, with nothing handed yet. -/
def State.readTaken (s : State) (p : PortId) (tag : Tag) (lines : Nat) : State :=
  (s.held p tag .linesRead []).setRead p (some ⟨tag, lines, .waiting⟩)

theorem State.hold_linesRead_taken (s : State) (p : PortId) (tag : Tag) (lines : Nat) :
    ((s.clearSense p).setRead p (some ⟨tag, lines, .waiting⟩)).hold p tag .linesRead = s.readTaken p tag lines :=
  congrArg (State.setRead · p (some ⟨tag, lines, .waiting⟩)) (State.hold_taken tag .linesRead)

theorem State.deliverable_readTaken (s : State) (p : PortId) (tag : Tag) (lines : Nat) :
    (s.readTaken p tag lines).deliverable p = s.deliverable p := State.deliverable_setRead (s.held p tag .linesRead []) p _

theorem State.setRead_readTaken (s : State) (p : PortId) (tag : Tag) (lines : Nat) (x : Option LinesRead) :
    (s.readTaken p tag lines).setRead p x = (s.held p tag .linesRead []).setRead p x := State.setRead_setRead _ p _ x

theorem State.startRead_line {s : State} {p : PortId} {l : RingLine} (next : s.deliverable p = some l) (tag : Tag)
    (lines : Nat) : (s.clearSense p).startRead p tag lines =
      (s.readTaken p tag lines).beginLine p ⟨tag, lines, .waiting⟩ l.number := by
  rw [← State.deliverable_readTaken s p tag lines] at next
  simp only [State.startRead, State.hold_linesRead_taken, next]

theorem State.startRead_noLine {s : State} {p : PortId} (up : (s.port p).link = .up) (next : s.deliverable p = none)
    (tag : Tag) (lines : Nat) : (s.clearSense p).startRead p tag lines =
      (s.held p tag .linesRead [acceptedFrame tag]).setRead p (some ⟨tag, lines, .waiting⟩) := by
  rw [← State.deliverable_readTaken s p tag lines] at next
  simp only [State.startRead, State.hold_linesRead_taken, next]
  exact congrArg (State.setRead · p (some ⟨tag, lines, .waiting⟩)) (State.accept_held up tag .linesRead)

section ReadBegins

variable {s : State} {p : PortId} {l : RingLine}

theorem State.startRead_waits (next : s.deliverable p = some l) (under : s.stepOn l.number = true) (tag : Tag) (lines : Nat) :
    (s.clearSense p).startRead p tag lines =
      (s.held p tag .linesRead []).setRead p (some ⟨tag, lines, .delivering l.number false 0⟩) := by
  rw [State.startRead_line next]
  exact (State.beginLine_waits (by exact under) p _).trans (State.setRead_readTaken s p tag lines _)

theorem State.startRead_holds (up : (s.port p).link = .up) (next : s.deliverable p = some l)
    (free : s.stepOn l.number = false) (found : s.rng.lookup l.number = some l) (tag : Tag) (lines : Nat) :
    (s.clearSense p).startRead p tag lines = (s.held p tag .linesRead [⟨tag, .dataIn l.header.bytes, false⟩]).setRead p
      (some ⟨tag, lines, .delivering l.number true 48⟩) := by
  rw [State.startRead_line next]
  refine (State.beginLine_holds (by exact free) (by exact found) p _).trans ?_
  rw [State.setRead_readTaken]
  exact congrArg (State.setRead · p (some ⟨tag, lines, .delivering l.number true 48⟩))
    (State.hand_held up tag .linesRead ⟨tag, .dataIn l.header.bytes, false⟩)

end ReadBegins

theorem linesReadCommand : Statement.LinesReadCommand := by
  intro dt p tag count s e lines he ready few hlines
  have up : (e.port p).link = .up := ready.1
  have few : count.toNat ≤ maxLinesRead := few
  obtain rfl : lines = countOf count.toNat maxLinesRead := hlines
  have starts (opened : (e.stream p).isOpen = true) (idle : (e.stream p).read = none) :
      exec (.linesRead dt p tag count) s =
        .next ((e.clearSense p).startRead p tag (countOf count.toNat maxLinesRead)).settle := by
    rw [exec_linesRead_ready he ready, State.takeLinesRead, State.countTest_passed few, State.stream_clearSense,
      if_pos opened, idle]
  refine ⟨fun shut => ?_, fun opened busy => ?_, fun opened idle next => ?_,
    fun l opened idle next found => ⟨fun free => ?_, fun x pass step line => ?_⟩⟩
  · rw [exec_linesRead_ready he ready, State.takeLinesRead, State.countTest_passed few, State.stream_clearSense,
      if_neg (ne_true_of_eq_false shut), State.refuse_taken up]
  · obtain ⟨r, read⟩ := Option.ne_none_iff_exists'.1 busy
    rw [exec_linesRead_ready he ready, State.takeLinesRead, State.countTest_passed few, State.stream_clearSense,
      if_pos opened, read]
    exact congrArg Host.Outcome.next (State.reply_taken up tag .busy)
  · rw [starts opened idle, State.startRead_noLine up next]
    rfl
  · rw [starts opened idle, State.startRead_holds up next (State.stepOn_eq_false free) found]
    rfl
  · rw [starts opened idle, State.startRead_waits next ((e.stepOn_iff _).2 ⟨x, pass, step, line⟩)]
    rfl

/-- Settles O46: LINES READ and a reader that waited begin a line alike, holding it (`State.beginLine_holds`) or waiting for
a step that is on it (`State.beginLine_waits`). -/
theorem linesReadTaken : Obligations.LinesReadTaken := ⟨deliverableLine, linesReadCommand, waitingReaderBegins⟩

end Sys2Proof.Machine

namespace Sys2Proof.Machine

/-! ### A read check is made (R158) -/

/-- Of the entries `before ++ x :: after`, `x` is the oldest WATCHING one, or the oldest of all where none is WATCHING. -/
def OldestEntry (before : List CheckEntry) (x : CheckEntry) (after : List CheckEntry) : Prop :=
  (x.state = .watching ∧ ∀ y ∈ before, y.state ≠ .watching) ∨
    (before = [] ∧ ∀ y ∈ before ++ x :: after, y.state ≠ .watching)

/-- In a full table the oldest WATCHING entry goes, or with none the oldest of all. -/
theorem evicted_eq {before after : List CheckEntry} {x : CheckEntry}
    (oldest : OldestEntry before x after) : evicted (before ++ x :: after) = some x := by
  rcases oldest with ⟨watching, earlier⟩ | ⟨rfl, quiet⟩
  · have first : (before ++ x :: after).find? (fun y => decide (y.state = .watching)) = some x :=
      List.find?_eq_some_iff_append.2 ⟨decide_eq_true watching, before, after, rfl, fun y mem => by
        rw [decide_eq_false (earlier y mem), Bool.not_false]⟩
    rw [evicted, first]
  · have absent : (x :: after).find? (fun y => decide (y.state = .watching)) = none :=
      List.find?_eq_none.2 fun y mem => Bool.eq_false_iff.1 (decide_eq_false (quiet y mem))
    rw [List.nil_append, evicted, absent]
    rfl

/-- The entry that goes is the first of its like. -/
theorem erase_evicted {before after : List CheckEntry} {x : CheckEntry}
    (oldest : OldestEntry before x after) :
    (before ++ x :: after).erase x = before ++ after := by
  have unseen : x ∉ before := by
    rintro mem
    rcases oldest with ⟨watching, earlier⟩ | ⟨rfl, -⟩
    · exact earlier x mem watching
    · cases mem
  rw [List.erase_append_right _ unseen, List.erase_cons_head]

theorem Stream.watch_room {st : Stream} (room : st.table.length < 64) (n : Nat) :
    st.watch n = ({ st with table := st.table ++ [⟨n, .watching⟩] }, false) := by
  have room : st.table.length < tableCapacity := room
  rw [Stream.watch, if_pos room]

/-- In a full table the entry of a line takes the place of another, which the unsure mark takes in. -/
theorem Stream.watch_full {st : Stream} {before after : List CheckEntry} {x : CheckEntry} (full : 64 ≤ st.table.length)
    (table : st.table = before ++ x :: after)
    (oldest : OldestEntry before x after) (n : Nat) :
    st.watch n = ({ st with
      table := before ++ after ++ [⟨n, .watching⟩]
      unsure := some (max (st.unsure.getD 0) x.line) }, true) := by
  have full : ¬ st.table.length < tableCapacity := Nat.not_lt.2 full
  rw [Stream.watch, if_neg full, table, evicted_eq oldest]
  simp only [erase_evicted oldest]
  cases st.unsure with
  | none => rw [Option.getD_none, Nat.zero_max]
  | some u => rfl

/-- A read check is no matter of the stream's points and reader. -/
theorem Stream.watch_keeps (st : Stream) (n : Nat) :
    (st.watch n).1 = { st with table := (st.watch n).1.table, unsure := (st.watch n).1.unsure } := by
  unfold Stream.watch
  split
  · rfl
  · split <;> rfl

/-! ### A delivered line, before the reader goes on (R150) -/

/-- The stream once line `n` has been delivered: the hold has ended, and the read point is the line. -/
def Stream.passedOver (st : Stream) (r : LinesRead) (n : Nat) : Stream :=
  { st with readPoint := n, read := some { r with remaining := r.remaining - 1, state := .waiting } }

/-- The line has been delivered, and watched where it may still change; the reader has not gone on yet. -/
def State.delivered (s : State) (p : PortId) (r : LinesRead) (l : RingLine) : State :=
  if (s.stream p).mode = .asis ∧ l.header.colour = .pending then
    (s.modStr p (fun st => st.passedOver r l.number)).makeEntry p l.number
  else s.modStr p (fun st => st.passedOver r l.number)

/-- The reader goes on with the next line or ends (R151). -/
def State.readOn (s : State) (p : PortId) (r : LinesRead) : State :=
  if r.remaining - 1 = 0 then s.endRead p r.tag
  else
    match s.deliverable p with
    | none => s.endRead p r.tag
    | some next => s.beginLine p { r with remaining := r.remaining - 1 } next.number

theorem State.completeDelivery_eq (s : State) (p : PortId) (r : LinesRead) (l : RingLine) :
    s.completeDelivery p r l = (s.delivered p r l).readOn p r := by
  unfold State.completeDelivery State.delivered
  cases (s.stream p).mode with
  | settled => rfl
  | asis => cases l.header.colour <;> rfl

theorem State.readOn_last {s : State} {p : PortId} {r : LinesRead} (last : r.remaining = 1 ∨ s.deliverable p = none) :
    s.readOn p r = s.endRead p r.tag := by
  rcases last with one | next
  · rw [State.readOn, one, if_pos rfl]
  · rw [State.readOn, next]
    exact ite_self _

theorem State.readOn_next {s : State} {p : PortId} {r : LinesRead} {l : RingLine} (more : 2 ≤ r.remaining)
    (next : s.deliverable p = some l) :
    s.readOn p r = s.beginLine p { r with remaining := r.remaining - 1 } l.number := by
  rw [State.readOn, if_neg (by omega), next]

section Delivered

variable {s : State} {p : PortId} {r : LinesRead} {l : RingLine}

theorem State.delivered_settled (settled : (s.stream p).mode = .settled ∨ l.header.colour = .settled) (r : LinesRead) :
    s.delivered p r l = s.modStr p (fun st => st.passedOver r l.number) := by
  rw [State.delivered, if_neg]
  rintro ⟨asis, pending⟩
  rcases settled with mode | colour
  · cases mode.symm.trans asis
  · cases colour.symm.trans pending

theorem State.delivered_watched (asis : (s.stream p).mode = .asis) (pending : l.header.colour = .pending) (r : LinesRead) :
    s.delivered p r l = (s.modStr p (fun st => st.passedOver r l.number)).makeEntry p l.number := by
  rw [State.delivered, if_pos ⟨asis, pending⟩]

theorem State.stream_makeEntry (s : State) (p : PortId) (n : Nat) :
    (s.makeEntry p n).stream p = ((s.stream p).watch n).1 := State.stream_modStr_same s p (fun _ => ((s.stream p).watch n).1)

theorem State.makeEntry_evictions (s : State) (p : PortId) (n : Nat) : (s.makeEntry p n).strCounters.checkEvictions =
    bump s.strCounters.checkEvictions (if ((s.stream p).watch n).2 then 1 else 0) := rfl

/-- Where the delivery is watched, the stream's table is the one `watch` makes. -/
theorem State.stream_delivered_watched (asis : (s.stream p).mode = .asis) (pending : l.header.colour = .pending)
    (r : LinesRead) : (s.delivered p r l).stream p = (((s.stream p).passedOver r l.number).watch l.number).1 := by
  rw [State.delivered_watched asis pending, State.stream_makeEntry, State.stream_modStr_same]

theorem State.stream_delivered_settled (settled : (s.stream p).mode = .settled ∨ l.header.colour = .settled)
    (r : LinesRead) : (s.delivered p r l).stream p = (s.stream p).passedOver r l.number := by
  rw [State.delivered_settled settled, State.stream_modStr_same]

/-- A delivery is no matter of anything but the stream and the count of evictions. -/
theorem State.delivered_rest (s : State) (p : PortId) (r : LinesRead) (l : RingLine) : s.delivered p r l = { s with
    str := (s.delivered p r l).str
    strCounters := (s.delivered p r l).strCounters } := by
  unfold State.delivered
  split <;> rfl

theorem State.delivered_port (s : State) (p q : PortId) (r : LinesRead) (l : RingLine) :
    (s.delivered p r l).port q = s.port q := by
  rw [State.delivered_rest]
  rfl

theorem State.delivered_rng (s : State) (p : PortId) (r : LinesRead) (l : RingLine) : (s.delivered p r l).rng = s.rng := by
  rw [State.delivered_rest]

theorem State.delivered_clr (s : State) (p : PortId) (r : LinesRead) (l : RingLine) : (s.delivered p r l).clr = s.clr := by
  rw [State.delivered_rest]

theorem State.delivered_lnb (s : State) (p : PortId) (r : LinesRead) (l : RingLine) : (s.delivered p r l).lnb = s.lnb := by
  rw [State.delivered_rest]

theorem State.stream_delivered_other (s : State) {p q : PortId} (apart : q ≠ p) (r : LinesRead) (l : RingLine) :
    (s.delivered p r l).stream q = s.stream q := by
  have passed := State.stream_modStr_other s (fun st => st.passedOver r l.number) apart
  unfold State.delivered
  split
  · exact (State.stream_modStr_other _ (fun _ => _) apart).trans passed
  · exact passed

/-- Of the stream a delivery changes its points, its reader, its table and its mark. -/
theorem State.stream_delivered (s : State) (p : PortId) (r : LinesRead) (l : RingLine) :
    (s.delivered p r l).stream p = { (s.stream p).passedOver r l.number with
      table := ((s.delivered p r l).stream p).table
      unsure := ((s.delivered p r l).stream p).unsure } := by
  by_cases watched : (s.stream p).mode = .asis ∧ l.header.colour = .pending
  · rw [State.stream_delivered_watched watched.1 watched.2]
    exact Stream.watch_keeps _ _
  · rw [State.delivered, if_neg watched, State.stream_modStr_same]

/-- The line the reader finds next, its read point being the line delivered. -/
theorem State.deliverable_delivered (s : State) (p : PortId) (r : LinesRead) (l : RingLine) :
    (s.delivered p r l).deliverable p = Machine.deliverable s.rng { s.stream p with readPoint := l.number } := by
  rw [State.deliverable, State.delivered_rng, State.stream_delivered]
  rfl

end Delivered

/-! ### The reader goes on or ends (R151) -/

/-- What the reader of port `p` leaves alone when it begins a line or ends. -/
structure ReaderMoved (p : PortId) (s t : State) : Prop where
  stream : ∃ x, t.stream p = { s.stream p with read := x }
  others : ∀ q, q ≠ p → t.stream q = s.stream q ∧ t.port q = s.port q
  strCounters : t.strCounters = s.strCounters
  clr : t.clr = s.clr
  lnb : t.lnb = s.lnb

namespace ReaderMoved

theorem refl (p : PortId) (s : State) : ReaderMoved p s s := ⟨⟨_, rfl⟩, fun _ _ => ⟨rfl, rfl⟩, rfl, rfl, rfl⟩

theorem of_parts {p : PortId} {s t : State} (x : Option LinesRead) (g : Port → Port)
    (str : t.str = (s.setRead p x).str) (prt : t.prt = (s.modPort p g).prt) (strCounters : t.strCounters = s.strCounters)
    (clr : t.clr = s.clr) (lnb : t.lnb = s.lnb) : ReaderMoved p s t where
  stream := ⟨x, by
    rw [State.stream, str]
    exact State.stream_modStr_same s p (fun st => { st with read := x })⟩
  others q apart := by
    rw [State.stream, str, State.port, prt]
    exact ⟨State.stream_modStr_other s (fun st => { st with read := x }) apart, State.port_modPort_other s g apart⟩
  strCounters := strCounters
  clr := clr
  lnb := lnb

theorem endRead (s : State) (p : PortId) (tag : Tag) : ReaderMoved p s (s.endRead p tag) := by
  unfold State.endRead
  simp only
  split <;> exact .of_parts none (fun q => (q.idleTag tag).answer tag .done) rfl rfl rfl rfl rfl

theorem beginLine (s : State) (p : PortId) (r : LinesRead) (n : Nat) : ReaderMoved p s (s.beginLine p r n) := by
  cases under : s.stepOn n with
  | true =>
    have untouched : s.prt = (s.modPort p id).prt := (Quad.set_get _ _).symm
    rw [State.beginLine_waits under]
    exact .of_parts _ id rfl untouched rfl rfl rfl
  | false =>
    cases found : s.rng.lookup n with
    | none =>
      rw [State.beginLine, if_neg (ne_true_of_eq_false under), State.holdLine, found]
      exact .refl p s
    | some l =>
      rw [State.beginLine_holds under found]
      exact .of_parts _ _ rfl rfl rfl rfl rfl

theorem readOn (s : State) (p : PortId) (r : LinesRead) : ReaderMoved p s (s.readOn p r) := by
  unfold State.readOn
  split
  · exact .endRead s p r.tag
  · split
    · exact .endRead s p r.tag
    · exact .beginLine s p _ _

end ReaderMoved

section ReadEnds

variable {s : State} {p : PortId}

/-- The LINES READ has ended DONE; READY is not raised yet. -/
def State.readEnded (s : State) (p : PortId) (tag : Tag) : State := (s.stopRead p).finish p tag .done

theorem State.endRead_eq (s : State) (p : PortId) (tag : Tag) : s.endRead p tag =
    if (s.deliverable p).isSome then (s.readEnded p tag).raiseOn p evReady else s.readEnded p tag := by
  have same : (s.readEnded p tag).deliverable p = s.deliverable p := State.deliverable_setRead s p none
  rw [← same]
  rfl

theorem State.port_readEnded (up : (s.port p).link = .up) (tag : Tag) : (s.readEnded p tag).port p =
    { (s.port p).idleTag tag with outgoing := ((s.port p).idleTag tag).outgoing ++ [replyFrame tag .done] } := by
  have here : (s.readEnded p tag).port p = ((s.port p).idleTag tag).answer tag .done :=
    State.port_modPort_same (s.stopRead p) p (fun q => (q.idleTag tag).answer tag .done)
  rw [here, Port.answer, Port.hand_of_up (by exact up)]
  rfl

theorem State.port_endRead (s : State) (p : PortId) (tag : Tag) : (s.endRead p tag).port p = (s.readEnded p tag).port p := by
  rw [State.endRead_eq]
  split <;> rfl

theorem State.stream_endRead (s : State) (p : PortId) (tag : Tag) :
    (s.endRead p tag).stream p = { s.stream p with read := none } := by
  have ended : (s.readEnded p tag).stream p = { s.stream p with read := none } :=
    State.stream_modStr_same s p (fun st => { st with read := none })
  rw [← ended, State.endRead_eq]
  split <;> rfl

/-- READY, when a line is still deliverable (R154). -/
theorem State.endRead_ready (up : (s.port p).link = .up) (next : s.deliverable p ≠ none) (tag : Tag) :
    ((s.endRead p tag).atn.get p).shows evReady := by
  have link : ((s.readEnded p tag).port p).link = .up := by
    rw [State.port_readEnded up]
    exact up
  rw [State.endRead_eq, if_pos (Option.isSome_iff_ne_none.2 next), State.atn_raiseOn_same, link]
  exact Atn.shows_raise evReady _

end ReadEnds

/-! ### The completion of a delivery (R150) -/

/-- A delivery completes once all of the line is handed and sent (log 10). -/
theorem exec_lineDeliveryComplete {dt n : Nat} {p : PortId} {r : LinesRead} {l : RingLine} {s e : State}
    (he : e = s.elapse dt) (read : (e.stream p).read = some r) (whole : r.state = .delivering n true l.size)
    (found : e.rng.lookup n = some l)
    (sent : ∀ f ∈ (e.port p).outgoing, f.tag = r.tag → ∀ d, f.body ≠ .dataIn d) :
    exec (.lineDeliveryComplete dt p) s = .next ((e.delivered p r l).readOn p r).settle := by
  have complete : e.lineDelivered p = some (r, l) := by
    simp only [State.lineDelivered, read, whole, found, (Port.paced_iff _ _).2 sent, and_self, if_true]
  subst he
  show Host.Outcome.next ((s.elapse dt).lineDeliveryComplete p) = _
  rw [State.lineDeliveryComplete, complete, ← State.completeDelivery_eq]

theorem deliveryCompletes : Statement.DeliveryCompletes := by
  intro dt n p r l s e he up read whole found sent
  obtain ⟨-, rfl⟩ := Rng.lookup_some found
  have moved := ReaderMoved.readOn (e.delivered p r l) p r
  obtain ⟨x, stream⟩ := moved.stream
  have delivered := State.stream_delivered e p r l
  have kept : Kept e ((e.delivered p r l).readOn p r) := State.completeDelivery_eq e p r l ▸ Kept.completeDelivery e p r l
  have lines : SameLines e ((e.delivered p r l).readOn p r) :=
    State.completeDelivery_eq e p r l ▸ SameLines.completeDelivery e p r l
  refine ⟨_, exec_lineDeliveryComplete he read whole found sent, ?_, ?_, ?_, fun settled => ?_, fun asis pending room => ?_,
    fun before y after asis pending full table oldest => ?_, fun q apart => ?_, lines.committed,
    moved.clr.trans (e.delivered_clr p r l), kept.tb, kept.scn, moved.lnb.trans (e.delivered_lnb p r l), kept.exs,
    kept.pending⟩
  · rw [stream, delivered]
    rfl
  · rw [stream, delivered]
    rfl
  · rw [stream, delivered]
    rfl
  · rw [stream, State.stream_delivered_settled settled]
    exact ⟨rfl, rfl⟩
  · have room : ((e.stream p).passedOver r l.number).table.length < 64 := room
    rw [stream, State.stream_delivered_watched asis pending, Stream.watch_room room]
    exact ⟨rfl, rfl⟩
  · rw [table] at oldest
    have watch := Stream.watch_full (st := (e.stream p).passedOver r l.number) full table oldest l.number
    have counted : (e.delivered p r l).strCounters.checkEvictions = bump e.strCounters.checkEvictions 1 := by
      rw [State.delivered_watched asis pending, State.makeEntry_evictions, State.stream_modStr_same, watch]
      rfl
    rw [stream, State.stream_delivered_watched asis pending, watch, moved.strCounters]
    exact ⟨rfl, rfl, counted⟩
  · obtain ⟨stream, port⟩ := moved.others q apart
    exact ⟨stream.trans (e.stream_delivered_other apart r l), port.trans (e.delivered_port p q r l)⟩

theorem deliveryGoesOn : Statement.DeliveryGoesOn := by
  intro dt n p r l next s e he up read whole found sent hnext some_left
  obtain ⟨-, rfl⟩ := Rng.lookup_some found
  have port : (e.delivered p r l).port p = e.port p := e.delivered_port p p r l
  have rng : (e.delivered p r l).rng = e.rng := e.delivered_rng p r l
  have clr : (e.delivered p r l).clr = e.clr := e.delivered_clr p r l
  have ahead : (e.delivered p r l).deliverable p = next := (State.deliverable_delivered e p r l).trans hnext.symm
  have up' : ((e.delivered p r l).port p).link = .up := port ▸ up
  refine ⟨_, exec_lineDeliveryComplete he read whole found sent, fun last => ?_, fun l' more following found' =>
    ⟨fun free => ?_, fun x pass step line => ?_⟩⟩
  · rw [State.readOn_last (last.imp_right ahead.trans), State.stream_endRead, State.port_endRead, State.port_readEnded up']
    refine ⟨rfl, Quad.get_set_same _ _ _, List.getLast?_concat, fun still => ?_⟩
    exact State.endRead_ready up' (ahead ▸ still) r.tag
  · have free : (e.delivered p r l).stepOn l'.number = false := State.stepOn_eq_false (clr ▸ free)
    have found' : (e.delivered p r l).rng.lookup l'.number = some l' := rng ▸ found'
    rw [State.readOn_next more (ahead.trans following), State.beginLine_holds free found', State.port_modPort_same]
    refine ⟨congrArg Stream.read (State.stream_modStr_same (e.delivered p r l) p _), ?_⟩
    exact (Port.hand_of_up up' _).trans (by rw [port])
  · have under : (e.delivered p r l).stepOn l'.number = true := (State.stepOn_iff _ _).2 ⟨x, clr ▸ pass, step, line⟩
    rw [State.readOn_next more (ahead.trans following), State.beginLine_waits under]
    exact ⟨congrArg Stream.read (State.stream_modStr_same (e.delivered p r l) p _), port⟩

/-- Settles O47: a delivery changes the stream and its read checks (`State.stream_delivered`, `Stream.watch_full`), and then
the reader moves: it ends (`State.endRead_eq`) or begins the next line, as a LINES READ does. -/
theorem lineDelivered : Obligations.LineDelivered := ⟨deliveryCompletes, deliveryGoesOn⟩

end Sys2Proof.Machine
